-- ==== Sys2Proof/Word.lean ====
section
/-! DEFINITION. The one word type of the block's boundary: the byte of the wire (spec 00_scope.md R9). Periods, counts and
positions are unbounded `Nat` and `Int` values kept inside their widths by an invariant (log entry 3). -/

namespace Sys2Proof

/-- "A byte is 8 bits" (R9). -/
abbrev Byte := BitVec 8

end Sys2Proof
end

