-- ==== Sys2Proof/Config.lean ====
section
/-! DEFINITION. The configuration record of spec 00_scope.md rules R7 and R8, and the free values the spec leaves open. -/

namespace Sys2Proof

/-- The three Output Backends (R7 `BACKEND`, R236). -/
inductive Backend where
  | directPin
  | shiftRegister
  | hBridge
  deriving DecidableEq, Repr, Inhabited

/-- The two readings of a broadcast that is no RESET (R7 `BROADCAST_POLICY`, R142). -/
inductive BroadcastPolicy where
  | allToSysReset
  | resetOnly
  deriving DecidableEq, Repr, Inhabited

/-- Which agent moves next (R6, R72): the host offers a byte, the main context gets a turn, the tick input fires. -/
inductive Turn where
  | host (b : Byte)
  | main
  | tick
  deriving DecidableEq, Repr, Inhabited

/-- "SYSTEM_ADDRESS ... 0x00 (fixed by the document)" (R7). -/
def systemAddress : Byte := 0x00#8

/-- The constants of R7, one field a row. `SYSTEM_ADDRESS` and `FULL_MIN` are fixed by the spec and `NCH` is derived, so
they are definitions; `STEP_LEN` is the length of `stepTable`; `BendScale` is `Machine.bendScale`. `travel` is the model's
own (log entry 11). -/
structure Config where
  deviceAddress : Byte
  startMarker : Byte
  minSub : Byte
  maxSub : Byte
  /-- read by no rule (timing only) -/
  timerResolution : Nat
  periodW : Nat
  posW : Nat
  /-- `FREQ_ROM[0..127]` -/
  freqRom : List Nat
  /-- `FULL_MAX[c]` -/
  fullMax : List Int
  /-- `CONSTR_MIN[c]` -/
  constrMin : List Int
  /-- `CONSTR_MAX[c]` -/
  constrMax : List Int
  /-- `BEND_OCTAVES`, a positive rational -/
  bendOctaves : Rat
  backend : Backend
  srWidth : Nat
  /-- below the level of the model: the latched word is what is observed (R67, R230) -/
  srMsbFirst : Bool
  /-- `STEP_TABLE[0..STEP_LEN-1]` -/
  stepTable : List Nat
  bridgePins : Nat
  /-- `HOME_TRANSITIONS[c]` -/
  homeTransitions : List Nat
  /-- Whether the mechanism on the pins or bridges has travel: DESIGN CHOICE, log entry 11. R7 bounds `HOME_TRANSITIONS`
  "for a backend with travel" and names no parameter for it; read by `Config.hasTravel` only. -/
  travel : Bool
  /-- read by no rule (timing only) -/
  homeInterval : Nat
  homeAtStartup : Bool
  broadcastPolicy : BroadcastPolicy
  seqStopSilences : Bool
  opcSysPing : Byte
  opcSysPong : Byte
  opcSysReset : Byte
  opcSysStart : Byte
  opcSysStop : Byte
  opcDevReset : Byte
  opcDevNoteOff : Byte
  opcDevNoteOn : Byte
  opcDevBendPitch : Byte
  opcDevSetMovement : Byte
  opcDevSetTargetColor : Byte
  deriving DecidableEq, Repr

/-- `NCH = MAX_SUB_ADDRESS - MIN_SUB_ADDRESS + 1` (R7). -/
def Config.nch (cfg : Config) : Nat := cfg.maxSub.toNat - cfg.minSub.toNat + 1

/-- "`FULL_MIN[c] = 0`" (R7, decision D7). -/
def Config.fullMin (_cfg : Config) (_c : Nat) : Int := 0

/-- `FULL_MAX[c]` (R7). -/
def Config.fullMaxAt (cfg : Config) (c : Nat) : Int := cfg.fullMax.getD c 0

/-- `CONSTR_MIN[c]` (R7). -/
def Config.constrMinAt (cfg : Config) (c : Nat) : Int := cfg.constrMin.getD c 0

/-- `CONSTR_MAX[c]` (R7). -/
def Config.constrMaxAt (cfg : Config) (c : Nat) : Int := cfg.constrMax.getD c 0

/-- The named opcodes of the system space (R97). -/
def Config.systemOpcodes (cfg : Config) : List Byte :=
  [cfg.opcSysPing, cfg.opcSysPong, cfg.opcSysReset, cfg.opcSysStart, cfg.opcSysStop]

/-- The named opcodes of the device space (R97). -/
def Config.deviceOpcodes (cfg : Config) : List Byte :=
  [cfg.opcDevReset, cfg.opcDevNoteOff, cfg.opcDevNoteOn, cfg.opcDevBendPitch, cfg.opcDevSetMovement,
   cfg.opcDevSetTargetColor]

/-- The addresses: `DEVICE_ADDRESS` differs from `SYSTEM_ADDRESS`, the sub-addresses are a 1-based range (R8). -/
abbrev Config.AddressesOk (cfg : Config) : Prop :=
  cfg.deviceAddress ≠ systemAddress ∧ 1 ≤ cfg.minSub.toNat ∧ cfg.minSub.toNat ≤ cfg.maxSub.toNat

/-- Every table has the shape R7 gives it and every entry fits its width (R8). The widths are at least one bit and, for
the H-bridge, the step table is not empty: DEDUCED, log entry 12. -/
abbrev Config.TablesOk (cfg : Config) : Prop :=
  1 ≤ cfg.periodW ∧ 1 ≤ cfg.posW ∧
  cfg.freqRom.length = 128 ∧ (∀ p ∈ cfg.freqRom, p < 2 ^ cfg.periodW) ∧
  cfg.fullMax.length = cfg.nch ∧ cfg.constrMin.length = cfg.nch ∧ cfg.constrMax.length = cfg.nch ∧
  cfg.homeTransitions.length = cfg.nch ∧
  (cfg.backend = .shiftRegister → cfg.nch ≤ cfg.srWidth) ∧
  (cfg.backend = .hBridge → 0 < cfg.stepTable.length) ∧
  (∀ w ∈ cfg.stepTable, w < 2 ^ cfg.bridgePins)

/-- The travel bounds of channel `c`: `FULL_MIN < FULL_MAX`, `FULL_MIN <= CONSTR_MIN < CONSTR_MAX <= FULL_MAX`, and
`FULL_MAX` fits `POS_W` signed bits (R7, R8). -/
abbrev Config.BoundsOk (cfg : Config) (c : Nat) : Prop :=
  cfg.fullMin c < cfg.fullMaxAt c ∧ cfg.fullMin c ≤ cfg.constrMinAt c ∧ cfg.constrMinAt c < cfg.constrMaxAt c ∧
  cfg.constrMaxAt c ≤ cfg.fullMaxAt c ∧ cfg.fullMaxAt c < 2 ^ (cfg.posW - 1)

/-- "a backend with travel" (R7): the shift-register coils have none (R208), the other two as the mechanism on them does
(DESIGN CHOICE, log entry 11). -/
def Config.hasTravel (cfg : Config) : Bool :=
  match cfg.backend with
  | .directPin => cfg.travel
  | .shiftRegister => false
  | .hBridge => cfg.travel

/-- "`HOME_TRANSITIONS[c] >= FULL_MAX[c] - FULL_MIN[c]` for a backend with travel, 0 allowed otherwise" (R7, R205, R208,
decision D25). -/
abbrev Config.HomingOk (cfg : Config) (c : Nat) : Prop :=
  cfg.hasTravel = true → cfg.fullMaxAt c - cfg.fullMin c ≤ (cfg.homeTransitions.getD c 0 : Nat)

/-- The constraints of R8 (with the ranges of R7) a configuration must meet for the rules to hold. -/
def Config.valid (cfg : Config) : Bool :=
  decide (cfg.AddressesOk ∧ cfg.TablesOk ∧ (∀ c ∈ List.range cfg.nch, cfg.BoundsOk c) ∧ 0 < cfg.bendOctaves ∧
    cfg.systemOpcodes.Nodup ∧ cfg.deviceOpcodes.Nodup ∧ ∀ c ∈ List.range cfg.nch, cfg.HomingOk c)

/-- FREE VALUE. The `i`-th turn once the environment's schedule is used up: "for any finite number `k >= 0`, `k` TICKs
may occur between two consecutive MAIN operations" (R72; log entry 4). -/
opaque Config.freeTurn : Nat → Turn

/-- FREE VALUE. The `i`-th draw of an arbitrary period (R170; log entry 7); its user keeps `PERIOD_W` bits of it. -/
opaque Config.freePeriod : Nat → Nat

/-- FREE VALUE. The content of partial-frame byte `slot` after the power-on that took free value `i` (R32, R280, decision
D34; log entry 8). -/
opaque Config.freeByte (i slot : Nat) : Byte

/-- FREE VALUE. Whether the bent period that `BEND_OCTAVES`, the original period and the deflection give is rounded up:
"It depends on `p`, `d` and the constant `BEND_OCTAVES` only" (R168 B3, B4; log entry 6). -/
opaque Config.bendRoundsUp (octaves : Rat) (p : Nat) (d : Int) : Bool

/-- The configuration `State.reset` carries: the spec's default where R7 gives one, its example or typical value where it
gives that, and otherwise a value named in log entry 2 (DESIGN CHOICE, and PRESUMED for what 93_implementation_defined.md
G1 to G5 supply from general knowledge). No statement about every state rests on it. -/
def Config.default : Config where
  deviceAddress := 0x01#8
  startMarker := 0x4D#8
  minSub := 1#8
  maxSub := 8#8
  timerResolution := 40
  periodW := 16
  posW := 16
  freqRom := List.replicate 48 0 ++ [40000] ++ List.replicate 11 0 ++ [3, 0, 2, 0, 1] ++ List.replicate 7 0 ++ [100] ++
    List.replicate 55 0
  fullMax := List.replicate 8 158
  constrMin := List.replicate 8 70
  constrMax := List.replicate 8 88
  bendOctaves := mkRat 200 1200
  backend := .directPin
  srWidth := 8
  srMsbFirst := true
  stepTable := [0b1010, 0b0110, 0b0101, 0b1001]
  bridgePins := 4
  homeTransitions := List.replicate 8 158
  travel := true
  homeInterval := 5000
  homeAtStartup := true
  broadcastPolicy := .resetOnly
  seqStopSilences := true
  opcSysPing := 0x80#8
  opcSysPong := 0x81#8
  opcSysReset := 0xFF#8
  opcSysStart := 0xFA#8
  opcSysStop := 0xFC#8
  opcDevReset := 0x00#8
  opcDevNoteOff := 0x08#8
  opcDevNoteOn := 0x09#8
  opcDevBendPitch := 0x0E#8
  opcDevSetMovement := 0xF0#8
  opcDevSetTargetColor := 0xF1#8

end Sys2Proof
end

