-- ==== Sys2Proof/Syntax.lean ====
section
/-! DEFINITION. The operations of the block, one constructor per row of spec/opcode_table.json. -/

namespace Sys2Proof

/-- The operations (spec 00_scope.md R11): the commands a frame carries, then the events, which have no encoding (R108).
A command carries everything of its frame that can vary: `sub` the sub-address byte of a system frame, `c` the channel
index of a device frame (R20), `payload` the body bytes after the command (R92), `op` the command byte where the row does
not fix it. -/
inductive Instr where
  | sysPing (sub : Byte) (payload : List Byte)
  | sysPong (sub : Byte) (payload : List Byte)
  | sysReset (sub : Byte) (payload : List Byte)
  | sysStart (sub : Byte) (payload : List Byte)
  | sysStop (sub : Byte) (payload : List Byte)
  | devReset (c : Nat) (payload : List Byte)
  | devNoteOff (c : Nat) (payload : List Byte)
  | devNoteOn (c : Nat) (payload : List Byte)
  | devBendPitch (c : Nat) (payload : List Byte)
  | devSetMovement (c : Nat) (payload : List Byte)
  | devSetTargetColor (c : Nat) (payload : List Byte)
  | sysFallback (sub op : Byte) (payload : List Byte)
  | devFallback (c : Nat) (op : Byte) (payload : List Byte)
  | broadcast (op : Byte) (payload : List Byte)
  | empty (target sub : Byte)
  | rxByte (b : Byte)
  | tick
  | homeBegin (sel : List Nat)
  | homeBeat
  | homeEnd
  | powerOn
  deriving DecidableEq, Repr

end Sys2Proof
end

