-- ==== Sys2Proof/WellFormed.lean ====
section
/-! DEFINITION. Which terms of `Instr` the spec admits under a configuration. -/

namespace Sys2Proof

/-- What the parser accepts as a sub-address: "accept `0x00` ... or any value inside `[MIN_SUB_ADDRESS,
MAX_SUB_ADDRESS]`" (R123). -/
def subAccepted (cfg : Config) (sub : Byte) : Bool :=
  sub == 0 || (cfg.minSub.toNat ≤ sub.toNat && sub.toNat ≤ cfg.maxSub.toNat)

/-- What the parser accepts as a target address (R122). -/
def targetAccepted (cfg : Config) (target : Byte) : Bool :=
  target == systemAddress || target == cfg.deviceAddress

/-- A payload fits a frame: "from 0 to 254 bytes" (R92). -/
def payloadFits (payload : List Byte) : Bool := payload.length ≤ 254

/-- A non-empty set of channel indices, written in ascending order without repeats (R203). -/
def selectionOk (cfg : Config) (sel : List Nat) : Bool :=
  !sel.isEmpty && decide (sel.Pairwise (· < ·)) && sel.all (· < cfg.nch)

/-- The terms a frame or an event of this configuration can stand for: R122, R123 (addresses), R92 (payload), R98 (a
fallback holds a command byte that is none of its space's named ones), R203 (the homing set). -/
def wellFormed (cfg : Config) : Instr → Bool
  | .sysPing sub payload => subAccepted cfg sub && payloadFits payload
  | .sysPong sub payload => subAccepted cfg sub && payloadFits payload
  | .sysReset sub payload => subAccepted cfg sub && payloadFits payload
  | .sysStart sub payload => subAccepted cfg sub && payloadFits payload
  | .sysStop sub payload => subAccepted cfg sub && payloadFits payload
  | .devReset c payload => decide (c < cfg.nch) && payloadFits payload
  | .devNoteOff c payload => decide (c < cfg.nch) && payloadFits payload
  | .devNoteOn c payload => decide (c < cfg.nch) && payloadFits payload
  | .devBendPitch c payload => decide (c < cfg.nch) && payloadFits payload
  | .devSetMovement c payload => decide (c < cfg.nch) && payloadFits payload
  | .devSetTargetColor c payload => decide (c < cfg.nch) && payloadFits payload
  | .sysFallback sub op payload => subAccepted cfg sub && !cfg.systemOpcodes.contains op && payloadFits payload
  | .devFallback c op payload => decide (c < cfg.nch) && !cfg.deviceOpcodes.contains op && payloadFits payload
  | .broadcast _ payload => payloadFits payload
  | .empty target sub => targetAccepted cfg target && subAccepted cfg sub
  | .rxByte _ => true
  | .tick => true
  | .homeBegin sel => selectionOk cfg sel
  | .homeBeat => true
  | .homeEnd => true
  | .powerOn => true

end Sys2Proof
end

