-- ==== Sys2Proof/Decode.lean ====
section
/-! DEFINITION. From bytes to operations and back (spec 30_encoding.md, 41_dispatch.md R140): the Message of a frame, the
decoder of a Message and of a whole frame, the encoder, and the two helpers that lay out an opcode-table word. -/

namespace Sys2Proof

/-- "The Message a frame yields is the tuple `(target_address, sub_address, command, payload)`" (R94); `command` is absent
for `L = 0` (R93). -/
structure Message where
  target : Byte
  sub : Byte
  command : Option Byte
  payload : List Byte
  deriving DecidableEq, Repr

/-- Why bytes are no frame of this unit, in the order the bytes are looked at (R256). -/
inductive DecodeError where
  /-- fewer bytes than the frame needs: the parser waits (R127) -/
  | needMoreBytes
  /-- error class (a) of R251 (R121) -/
  | noStartMarker
  /-- error class (b): neither the system nor this unit (R122) -/
  | foreignTarget
  /-- error class (b): neither broadcast nor in range (R123) -/
  | badSubAddress
  deriving DecidableEq, Repr

/-- The system opcode space (R96, R97, R98): PING first (R126), then the named opcodes, then the fallback (R140). -/
def decodeSystem (cfg : Config) (sub op : Byte) (payload : List Byte) : Instr :=
  if op = cfg.opcSysPing then .sysPing sub payload
  else if op = cfg.opcSysReset then .sysReset sub payload
  else if op = cfg.opcSysStart then .sysStart sub payload
  else if op = cfg.opcSysStop then .sysStop sub payload
  else if op = cfg.opcSysPong then .sysPong sub payload
  else .sysFallback sub op payload

/-- The device opcode space for an in-range sub-address (R140, R97, R98). -/
def decodeDevice (cfg : Config) (c : Nat) (op : Byte) (payload : List Byte) : Instr :=
  if op = cfg.opcDevReset then .devReset c payload
  else if op = cfg.opcDevNoteOff then .devNoteOff c payload
  else if op = cfg.opcDevNoteOn then .devNoteOn c payload
  else if op = cfg.opcDevBendPitch then .devBendPitch c payload
  else if op = cfg.opcDevSetMovement then .devSetMovement c payload
  else if op = cfg.opcDevSetTargetColor then .devSetTargetColor c payload
  else .devFallback c op payload

/-- `c = sub_address - MIN_SUB_ADDRESS` (R20, R140). -/
def channelOfSub (cfg : Config) (sub : Byte) : Nat := sub.toNat - cfg.minSub.toNat

/-- `sub_address = c + MIN_SUB_ADDRESS` (R20). -/
def subOfChannel (cfg : Config) (c : Nat) : Byte := BitVec.ofNat 8 (cfg.minSub.toNat + c)

/-- What a Message asks for, in the decode order of the opcode table: the empty Message (R141), then the space its target
selects (R96), in the device space the broadcast before the command (R140, R142). A Message with an address the parser
never accepts can only have been built by hand and is refused (R148). -/
def decodeMessage (cfg : Config) (m : Message) : Except DecodeError Instr :=
  if !targetAccepted cfg m.target then .error .foreignTarget
  else if !subAccepted cfg m.sub then .error .badSubAddress
  else
    match m.command with
    | none => .ok (.empty m.target m.sub)
    | some op =>
      if m.target = systemAddress then .ok (decodeSystem cfg m.sub op m.payload)
      else if m.sub = 0 then .ok (.broadcast op m.payload)
      else .ok (decodeDevice cfg (channelOfSub cfg m.sub) op m.payload)

/-- The Message of an accepted frame: command the first body byte, payload the rest (R92, R93, R126). -/
def messageOf (target sub : Byte) (body : List Byte) : Message :=
  match body with
  | [] => ⟨target, sub, none, []⟩
  | op :: payload => ⟨target, sub, some op, payload⟩

/-- A whole frame at the head of `bytes`, checked byte by byte in arrival order (R90, R91, R121 to R125, R256), with the
bytes after it. -/
def decode (cfg : Config) (bytes : List Byte) : Except DecodeError (Instr × List Byte) :=
  match bytes with
  | [] => .error .needMoreBytes
  | marker :: afterMarker =>
    if marker ≠ cfg.startMarker then .error .noStartMarker
    else
      match afterMarker with
      | [] => .error .needMoreBytes
      | target :: afterTarget =>
        if !targetAccepted cfg target then .error .foreignTarget
        else
          match afterTarget with
          | [] => .error .needMoreBytes
          | sub :: afterSub =>
            if !subAccepted cfg sub then .error .badSubAddress
            else
              match afterSub with
              | [] => .error .needMoreBytes
              | len :: body =>
                if body.length < len.toNat then .error .needMoreBytes
                else
                  match decodeMessage cfg (messageOf target sub (body.take len.toNat)) with
                  | .ok i => .ok (i, body.drop len.toNat)
                  | .error e => .error e

/-- A frame: start marker, target, sub-address, body length, body (R90). -/
def frameBytes (cfg : Config) (target sub : Byte) (body : List Byte) : List Byte :=
  cfg.startMarker :: target :: sub :: BitVec.ofNat 8 body.length :: body

/-- The frame of a command; an event has no encoding (R108). -/
def encode (cfg : Config) : Instr → Option (List Byte)
  | .sysPing sub payload => some (frameBytes cfg systemAddress sub (cfg.opcSysPing :: payload))
  | .sysPong sub payload => some (frameBytes cfg systemAddress sub (cfg.opcSysPong :: payload))
  | .sysReset sub payload => some (frameBytes cfg systemAddress sub (cfg.opcSysReset :: payload))
  | .sysStart sub payload => some (frameBytes cfg systemAddress sub (cfg.opcSysStart :: payload))
  | .sysStop sub payload => some (frameBytes cfg systemAddress sub (cfg.opcSysStop :: payload))
  | .devReset c payload => some (frameBytes cfg cfg.deviceAddress (subOfChannel cfg c) (cfg.opcDevReset :: payload))
  | .devNoteOff c payload => some (frameBytes cfg cfg.deviceAddress (subOfChannel cfg c) (cfg.opcDevNoteOff :: payload))
  | .devNoteOn c payload => some (frameBytes cfg cfg.deviceAddress (subOfChannel cfg c) (cfg.opcDevNoteOn :: payload))
  | .devBendPitch c payload =>
    some (frameBytes cfg cfg.deviceAddress (subOfChannel cfg c) (cfg.opcDevBendPitch :: payload))
  | .devSetMovement c payload =>
    some (frameBytes cfg cfg.deviceAddress (subOfChannel cfg c) (cfg.opcDevSetMovement :: payload))
  | .devSetTargetColor c payload =>
    some (frameBytes cfg cfg.deviceAddress (subOfChannel cfg c) (cfg.opcDevSetTargetColor :: payload))
  | .sysFallback sub op payload => some (frameBytes cfg systemAddress sub (op :: payload))
  | .devFallback c op payload => some (frameBytes cfg cfg.deviceAddress (subOfChannel cfg c) (op :: payload))
  | .broadcast op payload => some (frameBytes cfg cfg.deviceAddress 0 (op :: payload))
  | .empty target sub => some (frameBytes cfg target sub [])
  | .rxByte _ => none
  | .tick => none
  | .homeBegin _ => none
  | .homeBeat => none
  | .homeEnd => none
  | .powerOn => none

/-- The bytes of an opcode-table word, bit 0 the least significant bit of the first byte. -/
def wordBytes (nbits w : Nat) : List Byte :=
  (List.range (nbits / 8)).map fun k => BitVec.ofNat 8 (w / 2 ^ (8 * k))

/-- The frame of an opcode-table word. The table's bits are the command byte (its `match_applies_to`), so the header comes
from the space the byte is named in, and two operand bytes of zero follow, as many as any command names (log entry 20). -/
def frameOfWord (cfg : Config) (nbits w : Nat) : List Byte :=
  let body := ((wordBytes nbits w).take 253) ++ [0, 0]
  if cfg.systemOpcodes.contains (body.headD 0) then frameBytes cfg systemAddress 0 body
  else frameBytes cfg cfg.deviceAddress cfg.minSub body

/-- What the decoder reads from an opcode-table word laid out as a frame under `Config.default` (log entry 20). -/
def decodeTableWord (nbits w : Nat) : Option Instr :=
  match decode Config.default (frameOfWord Config.default nbits w) with
  | .ok (i, _) => some i
  | .error _ => none

end Sys2Proof
end

