-- ==== Sys2Proof/Machine/State.lean ====
section
/-! DEFINITION. The state of the block (spec 10_state.md), its reset value, and the reasons a step can be refused. -/

namespace Sys2Proof.Machine

/-- `DIR[c]`: "Encoding `FORWARD = 0`, `REVERSE = 1`" (R25). -/
inductive Dir where
  | forward
  | reverse
  deriving DecidableEq, Repr, Inhabited

/-- The level a direction pin shows for `DIR[c]` (R25, R224). -/
def Dir.level : Dir → Bool
  | .forward => false
  | .reverse => true

/-- `PSTATE`, the Frame Parser's five states (R31). -/
inductive PState where
  | seek
  | target
  | sub
  | len
  | body
  deriving DecidableEq, Repr, Inhabited

/-- `MODE` (R33): `RUN = 0`, `HOMING = 1`. -/
inductive Mode where
  | run
  | homing
  deriving DecidableEq, Repr, Inhabited

/-- The channel record, the eight registers of R20 to R27. Periods and counts are unsigned, positions and bounds signed;
their widths `PERIOD_W` and `POS_W` are kept by `Sys2Proof.Machine.State.Inv` (decision D3, log entry 3). -/
structure Channel where
  curPeriod : Nat
  origPeriod : Nat
  elapsed : Nat
  position : Int
  dir : Dir
  minPos : Int
  maxPos : Int
  out : Bool
  deriving DecidableEq, Repr, Inhabited

/-- A channel record beside its backend state `PHASE[c]` (R37): a lane (R188). -/
structure Lane where
  ch : Channel
  phase : Nat
  deriving DecidableEq, Repr, Inhabited

/-- The logical pins of the direct-pin backend (R221). -/
inductive Pin where
  | step (c : Nat)
  | dir (c : Nat)
  deriving DecidableEq, Repr

/-- The output events (R220). -/
inductive Output where
  | pinWrite (pin : Pin) (level : Bool)
  | srCommit (word : Nat)
  | bridgeWrite (c : Nat) (pattern : Nat)
  | txBytes (bytes : List Byte)
  deriving DecidableEq, Repr

/-- A reason to stop with a fault. There is none: "The block raises no exception, takes no trap and never halts ... it has
no fault outcome" (R250). Nothing raises a fault, which is safe: there is nothing a claim could lose by it. -/
inductive Fault : Type
  deriving DecidableEq, Repr

/-- Why an operation is refused: the spec defines no behaviour for it and says to refuse. -/
inductive Refusal where
  /-- Raised by `exec` for an instruction without a meaning yet (none is left). Safe: a stop proves nothing. -/
  | notModelled (mnemonic : String)
  /-- Raised by POWER_ON for a configuration that breaks R8, "is refused: the spec defines no behaviour for it" (R284,
  U11), or a range of R7 (log entries 11, 12, 13). Safe: a stop proves nothing. -/
  | badConfiguration
  /-- Raised by the hand-off for a Message whose target or sub-address the parser never accepts, which only a state no run
  reaches can hold: "must refuse any other sub-address" (R148, R61). Safe: a stop proves nothing. -/
  | badMessage
  /-- Raised by every device command for a channel index not below `NCH`, which names no record (R148, R20). Safe: a stop
  proves nothing. -/
  | noSuchChannel
  /-- Raised by HOME_BEGIN for an operand that is no "non-empty set of channel indices" (R203). Safe: a stop proves
  nothing. -/
  | badHomingSet
  deriving DecidableEq, Repr

/-- The whole machine. INVENTORY.md, heading State, lists each field with the rule that names it. -/
structure State where
  /-- the constants of R7, read by the operations and written by none (R42; log entry 1) -/
  cfg : Config
  /-- whether POWER_ON has run: "it occurs once", first (R280) -/
  powered : Bool
  /-- the channel records and phases, indexed by channel (R20, R37) -/
  lanes : List Lane
  /-- `SR_LATCH` (R38) -/
  srLatch : Nat
  /-- `PSTATE` (R31) -/
  pstate : PState
  /-- `F_TARGET` (R32) -/
  fTarget : Byte
  /-- `F_SUB` (R32) -/
  fSub : Byte
  /-- `F_LEN` (R32) -/
  fLen : Byte
  /-- `F_CNT` (R32) -/
  fCnt : Byte
  /-- `F_BODY[0..254]` (R32, R64) -/
  fBody : List Byte
  /-- `MODE` (R33) -/
  mode : Mode
  /-- `HOME_SEL`: the selected channel indices, ascending (R33) -/
  homeSel : List Nat
  /-- `HOME_CNT` (R33) -/
  homeCnt : Nat
  /-- the bytes the transport has accepted and MAIN has not yet consumed, oldest first (R40 (c), D28) -/
  rxQueue : List Byte
  /-- the output trace, oldest first (R10, R220) -/
  trace : List Output
  /-- the environment's next turns (model's own field, log entry 4) -/
  schedule : List Turn
  /-- the index of the next free value (model's own field, log entries 4, 7, 8) -/
  freeIdx : Nat
  deriving DecidableEq, Repr

/-- A zero-initialised channel record with the full-range bounds (R41). -/
def Channel.initial (cfg : Config) (c : Nat) : Channel where
  curPeriod := 0
  origPeriod := 0
  elapsed := 0
  position := 0
  dir := .forward
  minPos := cfg.fullMin c
  maxPos := cfg.fullMaxAt c
  out := false

/-- "one record per configured sub-address, zero-initialized" (R41), each with `PHASE[c] = 0`. -/
def initialLanes (cfg : Config) : List Lane :=
  (List.range cfg.nch).map fun c => ⟨Channel.initial cfg c, 0⟩

/-- The block at the release of reset, every register at the value of R41, POWER_ON not yet run (log entry 9). The
partial-frame registers, which R41 leaves unspecified, hold zeros here (DESIGN CHOICE, log entry 8). -/
def State.initial (cfg : Config) : State where
  cfg := cfg
  powered := false
  lanes := initialLanes cfg
  srLatch := 0
  pstate := .seek
  fTarget := 0
  fSub := 0
  fLen := 0
  fCnt := 0
  fBody := List.replicate 255 0
  mode := .run
  homeSel := []
  homeCnt := 0
  rxQueue := []
  trace := []
  schedule := []
  freeIdx := 0

/-- The machine right after reset, under the configuration of log entry 2. -/
def State.reset : State := State.initial Config.default

end Sys2Proof.Machine
end

