-- ==== Sys2Proof/Machine/Ops.lean ====
section
/-! DEFINITION. The named operations over the register files and the output trace that every meaning is built from. The
block has no data memory (R60) and takes no exception (R250), so no memory operation and no exception entry stands here. -/

namespace Sys2Proof.Machine

/-- `emit` a run of output events: append them to the output trace (R10, R220). -/
def State.emit (s : State) (outs : List Output) : State := { s with trace := s.trace ++ outs }

/-- The channel record of index `c` (R10). -/
def State.chan (s : State) (c : Nat) : Channel := (s.lanes.getD c default).ch

/-- Write the record of channel `c` and of no other (R10, R147). -/
def State.modifyChan (s : State) (c : Nat) (f : Channel → Channel) : State :=
  { s with lanes := s.lanes.modify c fun l => { l with ch := f l.ch } }

/-- Write the record of every channel. -/
def State.modifyAll (s : State) (f : Channel → Channel) : State :=
  { s with lanes := s.lanes.map fun l => { l with ch := f l.ch } }

/-- What one lane does in an operation over all lanes: its new registers, the events it emits, whether it called
`apply`. -/
structure LaneResult where
  lane : Lane
  outs : List Output
  acted : Bool

/-- A lane an operation does not touch. -/
def LaneResult.idle (l : Lane) : LaneResult := ⟨l, [], false⟩

/-- Run `f` on every lane; "Channels are independent lanes" (R188), so each sees its own registers only, and the events
come in ascending channel index (R76). -/
def State.overLanes (s : State) (f : Nat → Lane → LaneResult) : State :=
  { s with
    lanes := s.lanes.mapIdx fun c l => (f c l).lane
    trace := s.trace ++ (s.lanes.mapIdx fun c l => (f c l).outs).flatten }

/-- Whether some lane of the operation called `apply`: the `stepped` of R180 and the `driven` of R205. -/
def State.anyActed (s : State) (f : Nat → Lane → LaneResult) : Bool :=
  (s.lanes.mapIdx fun c l => (f c l).acted).any id

/-- Silence a channel: both periods become 0, nothing else (R164, R145, R203). -/
def silence (ch : Channel) : Channel := { ch with curPeriod := 0, origPeriod := 0 }

/-- A device command acts on the one record its sub-address names; a channel index that names none is refused (R147,
R148). -/
def onChannel (c : Nat) (s : State) (t : State) : Host.Outcome State Fault Refusal :=
  if c < s.cfg.nch then .next t else .refused .noSuchChannel

/-- Take the next free value (log entries 4, 7, 8). -/
def State.drawFree (s : State) : State := { s with freeIdx := s.freeIdx + 1 }

end Sys2Proof.Machine
end

