-- ==== Sys2Proof/Machine/Operands.lean ====
section
/-! DEFINITION. Operand assembly (spec 30_encoding.md R100 to R105): what each command reads from its payload. Bytes beyond
those an operation names are ignored (R100, D12). -/

namespace Sys2Proof.Machine

/-- "`note = payload[0]` (8 bits, used as a ROM address when `note <= 127`)" (R101); the velocity is read by no rule (R163).
An empty payload names no note. -/
def noteOperand : List Byte → Option Nat
  | [] => none
  | note :: _ => some note.toNat

/-- "`w = payload[0] : payload[1]` (16 bits, payload[0] high); `d = sext_16(w)`" (R103); absent with fewer than two bytes. -/
def deflectionOperand : List Byte → Option Int
  | hi :: lo :: _ => some (hi ++ lo).toInt
  | _ => none

/-- "A well-formed deflection has `-8192 <= d <= 8191`" (R103). -/
def deflectionOk (d : Int) : Bool := -8192 ≤ d && d ≤ 8191

/-- "`mode = payload[0]`; `mode = 0` selects the full range, `mode != 0` the constrained range" (R105): whether the
constrained range is asked for, absent for an empty payload. -/
def movementOperand : List Byte → Option Bool
  | [] => none
  | mode :: _ => some (mode != 0)

/-- `RomRead(n)`: the entry for a playable note, 0 for one outside the ROM or outside the playable range (R63, R161,
R162). -/
def romRead (cfg : Config) (note : Nat) : Nat :=
  if note ≤ 127 then cfg.freqRom.getD note 0 else 0

/-- `TableRead(i)` (R10, R65). -/
def tableRead (cfg : Config) (i : Nat) : Nat := cfg.stepTable.getD i 0

/-- `N(S) = max over c in S of HOME_TRANSITIONS[c]` (R202). -/
def homeBeats (cfg : Config) (sel : List Nat) : Nat :=
  sel.foldr (fun c n => max (cfg.homeTransitions.getD c 0) n) 0

end Sys2Proof.Machine
end

