-- ==== Sys2Proof/Machine/Flags.lean ====
section
/-! DEFINITION. The one-bit state of a channel (spec 10_state.md R34): how a step decides `DIR[c]` and how `OUT[c]` is
complemented. The block has no condition codes. -/

namespace Sys2Proof.Machine

/-- Steps 3a and 3b: the upper bound is tested first (R184). -/
def stepDir (ch : Channel) : Dir :=
  if ch.maxPos ≤ ch.position then .reverse
  else if ch.position ≤ ch.minPos then .forward
  else ch.dir

/-- Step 3c: one unit in the direction just written (R184). -/
def advance (d : Dir) (position : Int) : Int :=
  match d with
  | .forward => position + 1
  | .reverse => position - 1

/-- `OUT[c] <- not OUT[c]` (R184, R205). -/
def toggleOut (ch : Channel) : Channel := { ch with out := !ch.out }

/-- The channel-record part of `STEP(c)`: steps 3a to 3d (R184). -/
def stepChannel (ch : Channel) : Channel :=
  { toggleOut ch with dir := stepDir ch, position := advance (stepDir ch) ch.position }

end Sys2Proof.Machine
end

