-- ==== Sys2Proof/Machine/Sequencer.lean ====
section
/-! DEFINITION. The output pin sequencer (spec 45_output_sequencer.md): `apply`, `dir_update` and `commit_batch` of the
three backends, summarised in R238. No variant writes a channel register (R222). -/

namespace Sys2Proof.Machine

/-- The direction pin follows `DIR[c]` where its level differs (R224, R225); `level` is the direction the pin shows, which
"equals `DIR[c]` ... of the previous operation" (R224). -/
def dirPinWrites (c : Nat) (level now : Dir) : List Output :=
  if level = now then [] else [.pinWrite (.dir c) now.level]

/-- The next index into `STEP_TABLE` (R233). -/
def nextPhase (stepLen : Nat) (d : Dir) (phase : Nat) : Nat :=
  match d with
  | .forward => (phase + 1) % stepLen
  | .reverse => (phase + stepLen - 1) % stepLen

/-- `apply(c)` on a lane whose record already has its new values; `level` is what the direction pin shows (R222, R224,
R227, R233). -/
def applyLane (cfg : Config) (c : Nat) (level : Dir) (l : Lane) : LaneResult :=
  match cfg.backend with
  | .directPin => ⟨l, dirPinWrites c level l.ch.dir ++ [.pinWrite (.step c) l.ch.out], true⟩
  | .shiftRegister => ⟨l, [], true⟩
  | .hBridge =>
    let p := nextPhase cfg.stepTable.length l.ch.dir l.phase
    ⟨{ l with phase := p }, [.bridgeWrite c (tableRead cfg p)], true⟩

/-- `dir_update(c)` (R223, R225, R227, R235). -/
def dirUpdate (cfg : Config) (c : Nat) (level now : Dir) : List Output :=
  match cfg.backend with
  | .directPin => dirPinWrites c level now
  | .shiftRegister => []
  | .hBridge => []

/-- "channel index `c` is bit `c`" of the word, the bits from `NCH` on are 0 (R228). -/
def packOuts : List Lane → Nat
  | [] => 0
  | l :: rest => l.ch.out.toNat + 2 * packOuts rest

/-- `commit_batch()` (R229). -/
def commitBatch (s : State) : State :=
  match s.cfg.backend with
  | .directPin => s
  | .shiftRegister => { s.emit [.srCommit (packOuts s.lanes)] with srLatch := packOuts s.lanes }
  | .hBridge => s

/-- The work of one operation on all lanes, then the commit if some lane called `apply` (R180, R205). -/
def State.overLanesThenCommit (s : State) (f : Nat → Lane → LaneResult) : State :=
  if s.anyActed f then commitBatch (s.overLanes f) else s.overLanes f

end Sys2Proof.Machine
end

