-- ==== Sys2Proof/Machine/DeviceCommands.lean ====
section
/-! DEFINITION. The backend-specific device commands and the fallback of the device space (spec 41_dispatch.md R150, R151). -/

namespace Sys2Proof.Machine

/-- DEV_SET_MOVEMENT (R151): both bounds, the full range for mode 0 and the constrained range otherwise; an empty payload
is a no-op. -/
def execDevSetMovement (c : Nat) (payload : List Byte) (s : State) : Host.Outcome State Fault Refusal :=
  match movementOperand payload with
  | none => onChannel c s s
  | some false =>
    onChannel c s (s.modifyChan c fun ch => { ch with minPos := s.cfg.fullMin c, maxPos := s.cfg.fullMaxAt c })
  | some true =>
    onChannel c s (s.modifyChan c fun ch => { ch with minPos := s.cfg.constrMinAt c, maxPos := s.cfg.constrMaxAt c })

/-- DEV_SET_TARGET_COLOR: routed to the generic fallback, no effect on this block (R97, R150). -/
def execDevSetTargetColor (c : Nat) (_payload : List Byte) (s : State) : Host.Outcome State Fault Refusal := onChannel c s s

/-- DEV_FALLBACK: no-op for this block (R150). -/
def execDevFallback (c : Nat) (_op : Byte) (_payload : List Byte) (s : State) : Host.Outcome State Fault Refusal :=
  onChannel c s s

end Sys2Proof.Machine
end

