-- ==== Sys2Proof/Machine/Homing.lean ====
section
/-! DEFINITION. The reset commands and the homing sequence (spec 44_reset_homing.md). -/

namespace Sys2Proof.Machine

/-- HOME_BEGIN on one lane: silence it, force `DIR[c]` to `REVERSE`, let the direction pin follow (R203). -/
def homeBeginLane (cfg : Config) (sel : List Nat) (c : Nat) (l : Lane) : LaneResult :=
  if c ∈ sel then
    ⟨{ l with ch := { silence l.ch with dir := .reverse } }, dirUpdate cfg c l.ch.dir .reverse, false⟩
  else LaneResult.idle l

/-- `HOME_BEGIN(S)` (R203). -/
def homeBegin (sel : List Nat) (s : State) : State :=
  { s.overLanes (homeBeginLane s.cfg sel) with homeSel := sel, homeCnt := 0, mode := .homing }

/-- HOME_BEAT on one lane, `cnt` the beats done including this one: a selected channel whose own `HOME_TRANSITIONS[c]` are
not used up toggles `OUT[c]` and is applied (R205). -/
def homeBeatLane (cfg : Config) (sel : List Nat) (cnt c : Nat) (l : Lane) : LaneResult :=
  if c ∈ sel ∧ cnt ≤ cfg.homeTransitions.getD c 0 then
    applyLane cfg c l.ch.dir { l with ch := toggleOut l.ch }
  else LaneResult.idle l

/-- The effect of `HOME_BEAT` (R205). -/
def homeBeat (s : State) : State :=
  let t := { s with homeCnt := s.homeCnt + 1 }
  t.overLanesThenCommit (homeBeatLane s.cfg s.homeSel t.homeCnt)

/-- HOME_END on one lane: the ready/forward state, the direction pin following (R206). -/
def homeEndLane (cfg : Config) (sel : List Nat) (c : Nat) (l : Lane) : LaneResult :=
  if c ∈ sel then
    ⟨{ l with ch := { l.ch with position := 0, elapsed := 0, dir := .forward } }, dirUpdate cfg c l.ch.dir .forward, false⟩
  else LaneResult.idle l

/-- The effect of `HOME_END` (R206). -/
def homeEnd (s : State) : State :=
  { s.overLanes (homeEndLane s.cfg s.homeSel) with homeSel := [], homeCnt := 0, mode := .run }

/-- "`HOME_BEAT` is enabled when `HOME_CNT < N(HOME_SEL)`" while `MODE = HOMING` (R204). -/
def homeBeatEnabled (s : State) : Bool :=
  s.powered && s.mode == .homing && decide (s.homeCnt < homeBeats s.cfg s.homeSel)

/-- "`HOME_END` is enabled when `HOME_CNT = N(HOME_SEL)`" while `MODE = HOMING` (R204). -/
def homeEndEnabled (s : State) : Bool :=
  s.powered && s.mode == .homing && decide (s.homeCnt = homeBeats s.cfg s.homeSel)

/-- All channel indices, ascending: the `{0, 1, ..., NCH-1}` of R201. -/
def allChannels (cfg : Config) : List Nat := List.range cfg.nch

/-- HOME_BEGIN as an operation of its own (R203). -/
def execHomeBegin (sel : List Nat) (s : State) : Host.Outcome State Fault Refusal :=
  if selectionOk s.cfg sel then .next (homeBegin sel s) else .refused .badHomingSet

/-- HOME_BEAT (R205). While it is not enabled it does not occur and the state stands (log entry 5). -/
def execHomeBeat (s : State) : Host.Outcome State Fault Refusal :=
  if homeBeatEnabled s then .next (homeBeat s) else .next s

/-- HOME_END (R206). While it is not enabled it does not occur and the state stands (log entry 5). -/
def execHomeEnd (s : State) : Host.Outcome State Fault Refusal :=
  if homeEndEnabled s then .next (homeEnd s) else .next s

/-- DEV_RESET: "`HOME_BEGIN({c})`, followed by the sequence" (R200), whose further members are MAIN's next turns (R202). -/
def execDevReset (c : Nat) (_payload : List Byte) (s : State) : Host.Outcome State Fault Refusal :=
  onChannel c s (homeBegin [c] s)

/-- SYS_RESET: "`HOME_BEGIN({0, 1, ..., NCH-1})`, followed by the sequence" (R201). -/
def execSysReset (_sub : Byte) (_payload : List Byte) (s : State) : Host.Outcome State Fault Refusal :=
  .next (homeBegin (allChannels s.cfg) s)

/-- BROADCAST: a device Message with sub-address `0x00` (R142). -/
def execBroadcast (op : Byte) (_payload : List Byte) (s : State) : Host.Outcome State Fault Refusal :=
  if op = s.cfg.opcDevReset then .next (homeBegin (allChannels s.cfg) s)
  else
    match s.cfg.broadcastPolicy with
    | .allToSysReset => .next (homeBegin (allChannels s.cfg) s)
    | .resetOnly => .next s

end Sys2Proof.Machine
end

