-- ==== Sys2Proof/Machine/Bend.lean ====
section
/-! DEFINITION. `BendScale` (spec 42_note_commands.md R167, R168): the period `p / 2^(BEND_OCTAVES * d / 8192)` rounded one
way or the other, computed exactly on natural numbers; which way is a free value (log entry 6). -/

namespace Sys2Proof.Machine

/-- The exponent `BEND_OCTAVES * d / 8192` of R167, in lowest terms. -/
def bendExponent (octaves : Rat) (d : Int) : Rat := mkRat (octaves.num * d) (octaves.den * 8192)

/-- Whether `k <= BendNominal(p, d)`: with the exponent `x/q`, whether `k^q * 2^x <= p^q`, a negative `x` moved to the other
side. -/
def atMostNominal (e : Rat) (p k : Nat) : Bool :=
  decide (k ^ e.den * 2 ^ e.num.toNat ≤ p ^ e.den * 2 ^ (-e.num).toNat)

/-- Whether `BendNominal(p, d) <= k`. -/
def atLeastNominal (e : Rat) (p k : Nat) : Bool :=
  decide (p ^ e.den * 2 ^ (-e.num).toNat ≤ k ^ e.den * 2 ^ e.num.toNat)

/-- The largest number below `acc + 2^bits` from `acc` up that passes a test which holds up to some number and fails
beyond it: its bits are settled from the highest down. -/
def searchDown (test : Nat → Bool) : Nat → Nat → Nat
  | 0, acc => acc
  | bits + 1, acc => searchDown test bits (if test (acc + 2 ^ bits) then acc + 2 ^ bits else acc)

/-- Whether the nominal result fits `PERIOD_W` bits: "`BendNominal(p, d) <= 2^PERIOD_W - 1`" (R168 B4, B5). -/
def bendFits (cfg : Config) (p : Nat) (d : Int) : Bool :=
  atLeastNominal (bendExponent cfg.bendOctaves d) p (2 ^ cfg.periodW - 1)

/-- `floor(BendNominal(p, d))` where that fits `PERIOD_W` bits (R168 B4). -/
def bendFloor (cfg : Config) (p : Nat) (d : Int) : Nat :=
  searchDown (atMostNominal (bendExponent cfg.bendOctaves d) p) cfg.periodW 0

/-- `BendScale(p, d)` where the nominal result fits: the nominal value if it is a whole number, otherwise its floor or its
ceiling as the free rounding has it (R168 B1 to B4). -/
def bendScale (cfg : Config) (p : Nat) (d : Int) : Nat :=
  if atLeastNominal (bendExponent cfg.bendOctaves d) p (bendFloor cfg p d) then bendFloor cfg p d
  else if Config.bendRoundsUp cfg.bendOctaves p d then bendFloor cfg p d + 1
  else bendFloor cfg p d

/-- Whether the spec gives a bend of original period `p` by `d` a result: a well-formed deflection and a nominal result
that fits (R170). -/
def bendDefined (cfg : Config) (p : Nat) (d : Int) : Bool := deflectionOk d && bendFits cfg p d

/-- "an arbitrary `PERIOD_W`-bit value (a draw ...)" (R170): free value number `i`. -/
def drawnPeriod (cfg : Config) (i : Nat) : Nat := Config.freePeriod i % 2 ^ cfg.periodW

end Sys2Proof.Machine
end

