-- ==== Sys2Proof/Machine/NoteCommands.lean ====
section
/-! DEFINITION. The note and pitch-bend commands (spec 42_note_commands.md). -/

namespace Sys2Proof.Machine

/-- DEV_NOTE_ON (R160): both periods become the ROM entry of a playable note; an empty payload, a note above 127 and an
entry of 0 are no-ops (R162). -/
def execDevNoteOn (c : Nat) (payload : List Byte) (s : State) : Host.Outcome State Fault Refusal :=
  match noteOperand payload with
  | none => onChannel c s s
  | some note =>
    let p := romRead s.cfg note
    if p = 0 then onChannel c s s
    else onChannel c s (s.modifyChan c fun ch => { ch with curPeriod := p, origPeriod := p })

/-- DEV_NOTE_OFF (R164): both periods become 0, whatever the payload. -/
def execDevNoteOff (c : Nat) (_payload : List Byte) (s : State) : Host.Outcome State Fault Refusal :=
  onChannel c s (s.modifyChan c silence)

/-- A bend by `d` (R166): `CUR_PERIOD[c]` becomes `BendScale` of `ORIG_PERIOD[c]`, or an arbitrary period where the result is
unspecified (R170). -/
def bendChannel (c : Nat) (d : Int) (s : State) : State :=
  if bendDefined s.cfg (s.chan c).origPeriod d then
    s.modifyChan c fun ch => { ch with curPeriod := bendScale s.cfg ch.origPeriod d }
  else s.drawFree.modifyChan c fun ch => { ch with curPeriod := drawnPeriod s.cfg s.freeIdx }

/-- DEV_BEND_PITCH (R166): fewer than two payload bytes are a no-op. -/
def execDevBendPitch (c : Nat) (payload : List Byte) (s : State) : Host.Outcome State Fault Refusal :=
  match deflectionOperand payload with
  | none => onChannel c s s
  | some d => onChannel c s (bendChannel c d s)

end Sys2Proof.Machine
end

