-- ==== Sys2Proof/Machine/SystemCommands.lean ====
section
/-! DEFINITION. The system commands that are no reset, the fallback of the system space and the empty Message (spec
40_ingress_parser.md R129, 41_dispatch.md R141 to R146). -/

namespace Sys2Proof.Machine

/-- "a fixed 8-byte structure": the liveness reply (R95). -/
def livenessReply (cfg : Config) : List Byte :=
  [cfg.startMarker, 0x00#8, 0x00#8, 0x04#8, cfg.opcSysPong, cfg.deviceAddress, cfg.minSub, cfg.maxSub]

/-- SYS_PING: `send_pong()` (R129). -/
def execSysPing (_sub : Byte) (_payload : List Byte) (s : State) : Host.Outcome State Fault Refusal :=
  .next (s.emit [.txBytes (livenessReply s.cfg)])

/-- SYS_PONG received: "reply-only", it reaches the fallback and has no effect (R95, R146). -/
def execSysPong (_sub : Byte) (_payload : List Byte) (s : State) : Host.Outcome State Fault Refusal := .next s

/-- SYS_START: no-op (R144). -/
def execSysStart (_sub : Byte) (_payload : List Byte) (s : State) : Host.Outcome State Fault Refusal := .next s

/-- SYS_STOP: "NOTE_OFF on every channel in one atomic operation" when `SEQ_STOP_SILENCES`, else no-op (R145). -/
def execSysStop (_sub : Byte) (_payload : List Byte) (s : State) : Host.Outcome State Fault Refusal :=
  if s.cfg.seqStopSilences then .next (s.modifyAll silence) else .next s

/-- SYS_FALLBACK: no-op for this block (R146). -/
def execSysFallback (_sub _op : Byte) (_payload : List Byte) (s : State) : Host.Outcome State Fault Refusal := .next s

/-- EMPTY: "no-op for either target" (R141). -/
def execEmpty (_target _sub : Byte) (s : State) : Host.Outcome State Fault Refusal := .next s

end Sys2Proof.Machine
end

