-- ==== Sys2Proof/Machine/Ingress.lean ====
section
/-! DEFINITION. The command ingress (spec 40_ingress_parser.md): the five parser states, the hand-off of a complete Message,
and the dispatch of its command (41_dispatch.md R140). -/

namespace Sys2Proof.Machine

/-- State `SEEK` (R121). -/
def rxSeek (b : Byte) (s : State) : State :=
  if b = s.cfg.startMarker then { s with pstate := .target } else s

/-- State `TARGET` (R122). -/
def rxTarget (b : Byte) (s : State) : State :=
  if targetAccepted s.cfg b then { s with fTarget := b, pstate := .sub } else { s with pstate := .seek }

/-- State `SUB` (R123). -/
def rxSub (b : Byte) (s : State) : State :=
  if subAccepted s.cfg b then { s with fSub := b, pstate := .len } else { s with pstate := .seek }

/-- The Message the partial-frame registers hold (R126). -/
def heldMessage (s : State) : Message := messageOf s.fTarget s.fSub (s.fBody.take s.fLen.toNat)

/-- State `LEN` (R124): the length, and for `L = 0` the end of the frame. -/
def rxLen (b : Byte) (s : State) : State :=
  { s with fLen := b, fCnt := 0, pstate := if b = 0 then .seek else .body }

/-- State `BODY` (R125): one more body byte, and at `F_CNT = F_LEN` the end of the frame. -/
def rxBody (b : Byte) (s : State) : State :=
  { s with
    fBody := s.fBody.set s.fCnt.toNat b
    fCnt := s.fCnt + 1
    pstate := if s.fCnt + 1 = s.fLen then .seek else .body }

/-- The parser's own work on a byte: the next parser state, and whether the byte completed a frame (R120 to R125). It
writes the partial-frame registers and nothing else (R131). -/
def parseByte (b : Byte) (s : State) : State × Bool :=
  match s.pstate with
  | .seek => (rxSeek b s, false)
  | .target => (rxTarget b s, false)
  | .sub => (rxSub b s, false)
  | .len => (rxLen b s, decide (b = 0))
  | .body => (rxBody b s, decide (s.fCnt + 1 = s.fLen))

/-- The handler of a decoded command (R140, and for PING R126, R129). No Message decodes to an event. -/
def runCommand (i : Instr) (s : State) : Host.Outcome State Fault Refusal :=
  match i with
  | .sysPing sub payload => execSysPing sub payload s
  | .sysPong sub payload => execSysPong sub payload s
  | .sysReset sub payload => execSysReset sub payload s
  | .sysStart sub payload => execSysStart sub payload s
  | .sysStop sub payload => execSysStop sub payload s
  | .devReset c payload => execDevReset c payload s
  | .devNoteOff c payload => execDevNoteOff c payload s
  | .devNoteOn c payload => execDevNoteOn c payload s
  | .devBendPitch c payload => execDevBendPitch c payload s
  | .devSetMovement c payload => execDevSetMovement c payload s
  | .devSetTargetColor c payload => execDevSetTargetColor c payload s
  | .sysFallback sub op payload => execSysFallback sub op payload s
  | .devFallback c op payload => execDevFallback c op payload s
  | .broadcast op payload => execBroadcast op payload s
  | .empty target sub => execEmpty target sub s
  | .rxByte _ => .refused .badMessage
  | .tick => .refused .badMessage
  | .homeBegin _ => .refused .badMessage
  | .homeBeat => .refused .badMessage
  | .homeEnd => .refused .badMessage
  | .powerOn => .refused .badMessage

/-- The hand-off: "zero or one complete Message per call" goes to its handler in the same operation (R126). A Message with
an address the parser never accepts is refused (R148). -/
def handOff (m : Message) (s : State) : Host.Outcome State Fault Refusal :=
  match decodeMessage s.cfg m with
  | .ok i => runCommand i s
  | .error _ => .refused .badMessage

/-- "`RX_BYTE` is enabled only when `MODE = RUN`" (R120), after POWER_ON (R280). -/
def rxEnabled (s : State) : Bool := s.powered && s.mode == .run

/-- RX_BYTE (R120): the parser's work on the byte and, at the end of a frame, the hand-off (R126). While it is not enabled
the byte is not consumed and the state stands (log entry 5). -/
def execRxByte (b : Byte) (s : State) : Host.Outcome State Fault Refusal :=
  if rxEnabled s then
    if (parseByte b s).2 then handOff (heldMessage (parseByte b s).1) (parseByte b s).1
    else .next (parseByte b s).1
  else .next s

end Sys2Proof.Machine
end

