-- ==== Sys2Proof/Machine/PowerOn.lean ====
section
/-! DEFINITION. Power-on (spec 70_reset_and_hazards.md R280 to R283). -/

namespace Sys2Proof.Machine

/-- The register writes of POWER_ON (R280): the values of R41, the transport's queue and the output trace empty, and the
partial-frame registers unspecified: free value `s.freeIdx` (D34, log entry 8). -/
def powerOnRegisters (s : State) : State :=
  { s.drawFree with
    powered := true
    lanes := initialLanes s.cfg
    pstate := .seek
    fTarget := Config.freeByte s.freeIdx 0
    fSub := Config.freeByte s.freeIdx 1
    fLen := Config.freeByte s.freeIdx 2
    fCnt := Config.freeByte s.freeIdx 3
    fBody := (List.range 255).map fun k => Config.freeByte s.freeIdx (4 + k)
    mode := .run
    homeSel := []
    homeCnt := 0
    rxQueue := []
    trace := [] }

/-- `power_on_commit()` (R282): the shift register is cleared with one event; the pins of the other backends are at 0 with
no event. Their levels are read off the trace, which POWER_ON has emptied: `pinLevel` and `bridgeLevel` of the empty trace
are 0 (log entry 16). -/
def powerOnCommit (s : State) : State :=
  match s.cfg.backend with
  | .directPin => { s with srLatch := 0 }
  | .shiftRegister => { s.emit [.srCommit 0] with srLatch := 0 }
  | .hBridge => { s with srLatch := 0 }

/-- The effect of `POWER_ON`, the startup homing included (R280, R281). -/
def powerOn (s : State) : State :=
  let t := powerOnCommit (powerOnRegisters s)
  if s.cfg.homeAtStartup then homeBegin (allChannels s.cfg) t else t

/-- POWER_ON: once, first (R280); a configuration that breaks R8, or a range of R7, is refused (R284, log entry 13). Once it
has run it does not occur again (log entry 5). -/
def execPowerOn (s : State) : Host.Outcome State Fault Refusal :=
  if s.powered then .next s
  else if s.cfg.valid then .next (powerOn s)
  else .refused .badConfiguration

end Sys2Proof.Machine
end

