-- ==== Sys2Proof/Machine/Tick.lean ====
section
/-! DEFINITION. The tick operation (spec 43_tick_scheduler.md). -/

namespace Sys2Proof.Machine

/-- `STEP(c)` on a lane: direction, position and output, then `apply(c)` (R184). -/
def stepLane (cfg : Config) (c : Nat) (l : Lane) : LaneResult :=
  applyLane cfg c l.ch.dir { l with ch := stepChannel l.ch }

/-- TICK on one lane: a silent channel is skipped (R181); otherwise the count is advanced (R182) and compared (R183), and on
`ELAPSED >= CUR_PERIOD` cleared, with one step (R184). -/
def tickLane (cfg : Config) (c : Nat) (l : Lane) : LaneResult :=
  if l.ch.curPeriod = 0 then LaneResult.idle l
  else if l.ch.elapsed + 1 < l.ch.curPeriod then
    LaneResult.idle { l with ch := { l.ch with elapsed := l.ch.elapsed + 1 } }
  else stepLane cfg c { l with ch := { l.ch with elapsed := 0 } }

/-- The effect of `TICK` (R180). -/
def tick (s : State) : State := s.overLanesThenCommit (tickLane s.cfg)

/-- TICK: "enabled in every state of the block" once POWER_ON has run (R180, R280); before that it does not occur (log
entry 5). -/
def execTick (s : State) : Host.Outcome State Fault Refusal :=
  if s.powered then .next (tick s) else .next s

end Sys2Proof.Machine
end

