-- ==== Sys2Proof/Machine/Dispatch.lean ====
section
/-! DEFINITION. One arm per operation of spec/opcode_table.json, each one direct call of its meaning. -/

namespace Sys2Proof.Machine

def exec (i : Instr) (s : State) : Host.Outcome State Fault Refusal :=
  match i with
  -- the system space (R97, R129, R144 to R146, R201)
  | .sysPing sub payload => Sys2Proof.Machine.execSysPing sub payload s
  | .sysPong sub payload => Sys2Proof.Machine.execSysPong sub payload s
  | .sysReset sub payload => Sys2Proof.Machine.execSysReset sub payload s
  | .sysStart sub payload => Sys2Proof.Machine.execSysStart sub payload s
  | .sysStop sub payload => Sys2Proof.Machine.execSysStop sub payload s
  -- the device space (R97, R150, R151, R160, R164, R166, R200)
  | .devReset c payload => Sys2Proof.Machine.execDevReset c payload s
  | .devNoteOff c payload => Sys2Proof.Machine.execDevNoteOff c payload s
  | .devNoteOn c payload => Sys2Proof.Machine.execDevNoteOn c payload s
  | .devBendPitch c payload => Sys2Proof.Machine.execDevBendPitch c payload s
  | .devSetMovement c payload => Sys2Proof.Machine.execDevSetMovement c payload s
  | .devSetTargetColor c payload => Sys2Proof.Machine.execDevSetTargetColor c payload s
  -- the catch-alls, the broadcast and the empty Message (R141, R142, R146, R150)
  | .sysFallback sub op payload => Sys2Proof.Machine.execSysFallback sub op payload s
  | .devFallback c op payload => Sys2Proof.Machine.execDevFallback c op payload s
  | .broadcast op payload => Sys2Proof.Machine.execBroadcast op payload s
  | .empty target sub => Sys2Proof.Machine.execEmpty target sub s
  -- the events (R108, R120, R180, R203, R205, R206, R280)
  | .rxByte b => Sys2Proof.Machine.execRxByte b s
  | .tick => Sys2Proof.Machine.execTick s
  | .homeBegin sel => Sys2Proof.Machine.execHomeBegin sel s
  | .homeBeat => Sys2Proof.Machine.execHomeBeat s
  | .homeEnd => Sys2Proof.Machine.execHomeEnd s
  | .powerOn => Sys2Proof.Machine.execPowerOn s

end Sys2Proof.Machine
end

