-- ==== Sys2Proof/Machine/Turns.lean ====
section
/-! DEFINITION. Which operation comes next (spec 00_scope.md R6, R11; 20_memory.md R70 to R73): the environment's turns, and
what each agent does in its turn. -/

namespace Sys2Proof.Machine

/-- A turn of MAIN: while HOMING the enabled one of HOME_BEAT and HOME_END (R204); while RUN the oldest byte of the
transport's queue is consumed (R71), and with no byte there "nothing happens and nothing times out" (R120). -/
def mainTurn (s : State) : Host.Outcome State Fault Refusal :=
  match s.mode with
  | .homing => if s.homeCnt < homeBeats s.cfg s.homeSel then exec .homeBeat s else exec .homeEnd s
  | .run =>
    match s.rxQueue with
    | [] => .next s
    | b :: rest => exec (.rxByte b) { s with rxQueue := rest }

/-- A turn: HOST offers a byte, which joins the transport's queue (R6, R40 (c)); MAIN gets its turn; the tick input fires
(R254). -/
def runTurn (t : Turn) (s : State) : Host.Outcome State Fault Refusal :=
  match t with
  | .host b => .next { s with rxQueue := s.rxQueue ++ [b] }
  | .main => mainTurn s
  | .tick => exec .tick s

/-- One step of the machine: POWER_ON first (R280), then turn by turn the environment's schedule, and once that is used up a
free turn each (R72, log entry 4). -/
def runNext (s : State) : Host.Outcome State Fault Refusal :=
  if s.powered then
    match s.schedule with
    | t :: rest => runTurn t { s with schedule := rest }
    | [] => runTurn (Config.freeTurn s.freeIdx) s.drawFree
  else exec .powerOn s

/-- The block with a frame received up to its last byte, that byte at the head of the transport's queue and the next turn
MAIN's: the very next step completes the frame (log entry 20). -/
def placeFrame (frame : List Byte) (s : State) : State :=
  { s with
    powered := true
    pstate := .body
    fTarget := frame.getD 1 0
    fSub := frame.getD 2 0
    fLen := frame.getD 3 0
    fCnt := frame.getD 3 0 - 1
    fBody := (frame.drop 4).dropLast ++ List.replicate (255 - (frame.length - 5)) 0
    mode := .run
    homeSel := []
    homeCnt := 0
    rxQueue := [frame.getLastD 0]
    schedule := [.main] }

end Sys2Proof.Machine
end

