-- ==== Sys2Proof/Machine/Step.lean ====
section
/-! DEFINITION. One step of the machine, and the placing of an opcode-table word as its next instruction. -/

namespace Sys2Proof.Machine

/-- One step: one atomic operation (R11, R70). -/
def step (s : State) : Host.Outcome State Fault Refusal := runNext s

/-- `s` with the frame of an opcode-table word received up to its last byte, which the very next step consumes (log entry
20). -/
def State.withFetchWord (s : State) (nbits w : Nat) : State := placeFrame (frameOfWord s.cfg nbits w) s

end Sys2Proof.Machine
end

