-- ==== Sys2Proof/Safety.lean ====
section
/-! DEFINITION. What counts as a good state, in the terms the statements use: the invariant of the registers (spec
10_state.md R29, 43_tick_scheduler.md R187, 44_reset_homing.md R204), the pins and bridges against the registers (R224, R282), the part of a
state the backend does not touch (R237), and the frame a state has received (R126). -/

namespace Sys2Proof.Machine

/-- One lane: the periods fit `PERIOD_W` bits and the count stays below the last value of that width, the position stays in
the full range (R187), the bounds are the full or the constrained pair (R26, R151), the phase indexes the step table
(R37). -/
structure LaneOk (cfg : Config) (c : Nat) (l : Lane) : Prop where
  curPeriod_lt : l.ch.curPeriod < 2 ^ cfg.periodW
  origPeriod_lt : l.ch.origPeriod < 2 ^ cfg.periodW
  elapsed_lt : l.ch.elapsed + 1 < 2 ^ cfg.periodW
  position_ge : cfg.fullMin c ≤ l.ch.position
  position_le : l.ch.position ≤ cfg.fullMaxAt c
  bounds : (l.ch.minPos = cfg.fullMin c ∧ l.ch.maxPos = cfg.fullMaxAt c) ∨
    (l.ch.minPos = cfg.constrMinAt c ∧ l.ch.maxPos = cfg.constrMaxAt c)
  phase_lt : cfg.backend = .hBridge → l.phase < cfg.stepTable.length

/-- The parser: a buffer of 255 bytes, accepted addresses once they are read, and in `BODY` bytes still to come (R32, R122,
R123, R125). -/
structure ParserOk (s : State) : Prop where
  body_length : s.fBody.length = 255
  target_accepted : s.pstate = .sub ∨ s.pstate = .len ∨ s.pstate = .body → targetAccepted s.cfg s.fTarget = true
  sub_accepted : s.pstate = .len ∨ s.pstate = .body → subAccepted s.cfg s.fSub = true
  count_lt : s.pstate = .body → s.fCnt.toNat < s.fLen.toNat

/-- The homing sequencer: idle while RUN; while HOMING a set of channels, no more beats than needed, the parser in `SEEK`
(R207), every selected channel silent and in reverse (R203, R205). -/
structure HomingOk (s : State) : Prop where
  idle_in_run : s.mode = .run → s.homeSel = [] ∧ s.homeCnt = 0
  set_ok : s.mode = .homing → selectionOk s.cfg s.homeSel = true
  count_le : s.mode = .homing → s.homeCnt ≤ homeBeats s.cfg s.homeSel
  parser_seeks : s.mode = .homing → s.pstate = .seek
  selected_silent : s.mode = .homing → ∀ c ∈ s.homeSel, ∀ l, s.lanes[c]? = some l →
    l.ch.curPeriod = 0 ∧ l.ch.origPeriod = 0 ∧ l.ch.dir = .reverse

/-- The invariant of the block under a configuration that R7 and R8 admit: one lane a channel (R20), every lane, the
latch in its width (R38), the parser and the homing sequencer in order. -/
structure State.Inv (s : State) : Prop where
  config : s.cfg.valid = true
  lanes_length : s.lanes.length = s.cfg.nch
  lane : ∀ (c : Nat) (l : Lane), s.lanes[c]? = some l → LaneOk s.cfg c l
  latch_lt : s.cfg.backend = .shiftRegister → s.srLatch < 2 ^ s.cfg.srWidth
  parser : ParserOk s
  homing : HomingOk s

/-- "`level(pin)` is the level last written to the pin (0 at power-on)" (R224), read off an output trace. -/
def pinLevel (pin : Pin) (trace : List Output) : Bool :=
  trace.foldl (fun level o => match o with
    | .pinWrite p l => if p = pin then l else level
    | .srCommit _ => level
    | .bridgeWrite _ _ => level
    | .txBytes _ => level) false

/-- The pattern on the bridge pins of channel `c`, bit `i` the level of pin `i`, read off an output trace: "every bridge pin 0
(coils off)" at power-on (R282), then the last pattern written, which "stays on the pins" (R233, R235). -/
def bridgeLevel (c : Nat) (trace : List Output) : Nat :=
  trace.foldl (fun pattern o => match o with
    | .pinWrite _ _ => pattern
    | .srCommit _ => pattern
    | .bridgeWrite k w => if k = c then w else pattern
    | .txBytes _ => pattern) 0

/-- "the level of `step[c]` always equals `OUT[c]` and the level of `dir[c]` always equals `DIR[c]`" (R224), for every
record. -/
def PinsFollow (s : State) : Prop :=
  ∀ (c : Nat) (l : Lane), s.lanes[c]? = some l →
    pinLevel (.step c) s.trace = l.ch.out ∧ pinLevel (.dir c) s.trace = l.ch.dir.level

/-- Every channel's bridge pins are 0 with the phase at 0, as from power-on (R282), or show the table entry of the phase
(R233, R235). -/
def BridgeFollows (s : State) : Prop :=
  ∀ (c : Nat) (l : Lane), s.lanes[c]? = some l →
    (bridgeLevel c s.trace = 0 ∧ l.phase = 0) ∨ bridgeLevel c s.trace = tableRead s.cfg l.phase

/-- The words a trace commits to the shift register, oldest first (R220). -/
def committedWords (trace : List Output) : List Nat :=
  trace.filterMap fun o => match o with
    | .srCommit w => some w
    | .pinWrite _ _ => none
    | .bridgeWrite _ _ => none
    | .txBytes _ => none

/-- The shift register shows the last word committed, and that is the packed `OUT` bits (R228, R229). -/
def LatchFollows (s : State) : Prop :=
  s.srLatch = packOuts s.lanes ∧ (committedWords s.trace).getLast? = some s.srLatch

/-- "The values of every channel register, of the parser state and of the homing state" (R237), with the transport's queue
and the environment's data: a state less `BACKEND`, the trace, `PHASE` and `SR_LATCH`. -/
def State.core (s : State) : State :=
  { s with
    cfg := { s.cfg with backend := .directPin }
    lanes := s.lanes.map fun l => { l with phase := 0 }
    srLatch := 0
    trace := [] }

/-- `s` under another backend (R236, R237). -/
def State.withBackend (s : State) (b : Backend) : State := { s with cfg := { s.cfg with backend := b } }

/-- Whether an output event drives the bridge pins of channel `c` (R205, R233). -/
def Output.isBridgeWrite (c : Nat) : Output → Bool
  | .pinWrite _ _ => false
  | .srCommit _ => false
  | .bridgeWrite k _ => k == c
  | .txBytes _ => false

/-- Whether an output event drives a pin of channel `c`'s own (R181, R220). -/
def Output.drives (c : Nat) : Output → Bool
  | .pinWrite (.step k) _ => k == c
  | .pinWrite (.dir k) _ => k == c
  | .srCommit _ => false
  | .bridgeWrite k _ => k == c
  | .txBytes _ => false

/-- Whether an output event drives the step pin of channel `c` (R205, R224). -/
def Output.isStepWrite (c : Nat) : Output → Bool
  | .pinWrite (.step k) _ => k == c
  | .pinWrite (.dir _) _ => false
  | .srCommit _ => false
  | .bridgeWrite _ _ => false
  | .txBytes _ => false

/-- The channel a device command acts on (R147). -/
def deviceChannel : Instr → Option Nat
  | .devReset c _ => some c
  | .devNoteOff c _ => some c
  | .devNoteOn c _ => some c
  | .devBendPitch c _ => some c
  | .devSetMovement c _ => some c
  | .devSetTargetColor c _ => some c
  | .devFallback c _ _ => some c
  | .sysPing _ _ => none
  | .sysPong _ _ => none
  | .sysReset _ _ => none
  | .sysStart _ _ => none
  | .sysStop _ _ => none
  | .sysFallback _ _ _ => none
  | .broadcast _ _ => none
  | .empty _ _ => none
  | .rxByte _ => none
  | .tick => none
  | .homeBegin _ => none
  | .homeBeat => none
  | .homeEnd => none
  | .powerOn => none

/-- A Message to the system address (R94, R96). -/
def systemMessage (sub op : Byte) (payload : List Byte) : Message := ⟨systemAddress, sub, some op, payload⟩

/-- A Message to channel `c` of this unit (R20, R94, R96). -/
def deviceMessage (cfg : Config) (c : Nat) (op : Byte) (payload : List Byte) : Message :=
  ⟨cfg.deviceAddress, subOfChannel cfg c, some op, payload⟩

/-- A run of homing beats (`true`) and TICKs (`false`) in any order: what may stand between HOME_BEGIN and HOME_END
(R202). -/
def homingRun (s : State) (ops : List Bool) : State := ops.foldl (fun u beat => if beat then homeBeat u else tick u) s

/-- How many operations of such a run change `OUT[c]`: the output transitions of channel `c` under every backend (R27,
R211). -/
def outChanges (c : Nat) (s : State) (ops : List Bool) : Nat :=
  (List.range ops.length).countP fun k =>
    ((homingRun s (ops.take (k + 1))).chan c).out != ((homingRun s (ops.take k)).chan c).out

/-- Whether a command of the configuration starts a reset: DEV_RESET, SYS_RESET, and a broadcast that the policy turns
into one (R142, R200, R201, R210). -/
def startsReset (cfg : Config) : Instr → Prop
  | .devReset _ _ => True
  | .sysReset _ _ => True
  | .broadcast op _ => op = cfg.opcDevReset ∨ cfg.broadcastPolicy = .allToSysReset
  | .sysPing _ _ => False
  | .sysPong _ _ => False
  | .sysStart _ _ => False
  | .sysStop _ _ => False
  | .devNoteOff _ _ => False
  | .devNoteOn _ _ => False
  | .devBendPitch _ _ => False
  | .devSetMovement _ _ => False
  | .devSetTargetColor _ _ => False
  | .sysFallback _ _ _ => False
  | .devFallback _ _ _ => False
  | .empty _ _ => False
  | .rxByte _ => False
  | .tick => False
  | .homeBegin _ => False
  | .homeBeat => False
  | .homeEnd => False
  | .powerOn => False

/-- Whether a lane steps in the next TICK: it is playing and its count reaches its period (R181 to R183). -/
abbrev stepDue (l : Lane) : Prop := l.ch.curPeriod ≠ 0 ∧ l.ch.curPeriod ≤ l.ch.elapsed + 1

/-- The lifecycle states of a channel (R43). -/
inductive Life where
  | idle
  | playing
  | homing
  deriving DecidableEq, Repr

/-- "The document's lifecycle, as a function of the registers" (R43): nothing stores it. -/
def State.life (s : State) (c : Nat) : Life :=
  if s.mode = .homing ∧ c ∈ s.homeSel then .homing
  else if (s.chan c).curPeriod = 0 then .idle
  else .playing

/-- RX_BYTE on each byte of a run in arrival order, nothing between them. -/
def rxBytes : List Byte → State → Host.Outcome State Fault Refusal
  | [], s => .next s
  | b :: rest, s =>
    match exec (.rxByte b) s with
    | .next t => rxBytes rest t
    | .fault r => .fault r
    | .refused r => .refused r

/-- The partial-frame registers after a whole frame to `target` and `sub` with body `body` (R121 to R126): `F_CNT` is
written only after the length byte. -/
def State.afterFrame (s : State) (target sub : Byte) (body : List Byte) : State :=
  { s with
    pstate := .seek
    fTarget := target
    fSub := sub
    fLen := BitVec.ofNat 8 body.length
    fCnt := BitVec.ofNat 8 body.length
    fBody := body ++ s.fBody.drop body.length }

end Sys2Proof.Machine
end

