-- ==== Sys2Proof/Certificates/Slice0/Obligations.lean ====
section
/-! DEFINITION. The statements for the provers. Each docstring names the rule of the spec a statement formalises. A free
value (log entries 4, 6, 7, 8) is an opaque constant, so each statement holds whatever it is. -/

open Sys2Proof Sys2Proof.Machine

/-! ### Registers at power-on -/

/-- R41: the register values before POWER_ON's own events, for every configuration. The partial-frame registers have no
value in R41 and none here. -/
def Obligations.InitialRegistersHoldTheirResetValues : Prop :=
  ∀ cfg : Config,
    let s := State.initial cfg
    s.lanes.length = cfg.nch ∧
    (∀ c, c < cfg.nch → ∃ l, s.lanes[c]? = some l ∧ l.phase = 0 ∧ l.ch.curPeriod = 0 ∧ l.ch.origPeriod = 0 ∧
      l.ch.elapsed = 0 ∧ l.ch.position = 0 ∧ l.ch.dir = .forward ∧ l.ch.out = false ∧ l.ch.minPos = 0 ∧
      l.ch.maxPos = cfg.fullMaxAt c) ∧
    s.pstate = .seek ∧ s.mode = .run ∧ s.homeSel = [] ∧ s.homeCnt = 0 ∧ s.srLatch = 0 ∧ s.trace = [] ∧ s.rxQueue = []

/-- R280 and R282: before POWER_ON a step is POWER_ON; it writes every register but the unspecified ones, empties the queue
and the trace, commits the power-on levels and begins the startup homing when HOME_AT_STARTUP. Every bridge pin and step pin
is at 0 after it, every direction pin too but for those the startup homing has set. It occurs once: no operation takes it
back, and after any step it has occurred. -/
def Obligations.PowerOnWritesTheInitialRecordsAndCommits : Prop :=
  (∀ (i : Instr) (s t : State), s.powered = true → exec i s = .next t → t.powered = true) ∧
  (∀ s t : State, step s = .next t → t.powered = true) ∧
  ∀ s : State, s.powered = false → s.cfg.valid = true →
    ∃ t, exec .powerOn s = .next t ∧ step s = .next t ∧ t.powered = true ∧ t.cfg = s.cfg ∧ t.schedule = s.schedule ∧
      t.lanes = (List.range s.cfg.nch).map (fun c =>
        { ch := { curPeriod := 0, origPeriod := 0, elapsed := 0, position := 0,
                  dir := if s.cfg.homeAtStartup then .reverse else .forward,
                  minPos := s.cfg.fullMin c, maxPos := s.cfg.fullMaxAt c, out := false },
          phase := 0 }) ∧
      t.pstate = .seek ∧ t.rxQueue = [] ∧ t.homeCnt = 0 ∧ t.srLatch = 0 ∧ t.fBody.length = 255 ∧
      t.mode = (if s.cfg.homeAtStartup then .homing else .run) ∧
      t.homeSel = (if s.cfg.homeAtStartup then List.range s.cfg.nch else []) ∧
      t.trace = (match s.cfg.backend with
        | .directPin =>
          if s.cfg.homeAtStartup then (List.range s.cfg.nch).map fun c => .pinWrite (.dir c) true else []
        | .shiftRegister => [.srCommit 0]
        | .hBridge => []) ∧
      ∀ c, bridgeLevel c t.trace = 0 ∧ pinLevel (.step c) t.trace = false ∧
        pinLevel (.dir c) t.trace =
          (decide (s.cfg.backend = .directPin) && s.cfg.homeAtStartup && decide (c < s.cfg.nch))

/-- What the model refuses by name, where the spec says to refuse: a configuration that breaks R7 or R8 (log entry 13), a
device command for a channel that is not there and a homing operand that is no set of channels (log entry 14). -/
def Obligations.BadOperandsAreRefusedByName : Prop :=
  (∀ s : State, s.powered = false → s.cfg.valid = false → exec .powerOn s = .refused .badConfiguration) ∧
  (∀ (s : State) (i : Instr) (c : Nat), deviceChannel i = some c → s.cfg.nch ≤ c → exec i s = .refused .noSuchChannel) ∧
  (∀ (s : State) (sel : List Nat), selectionOk s.cfg sel = false → exec (.homeBegin sel) s = .refused .badHomingSet)

/-- An operation that is not enabled leaves the state as it is: the model's choice, log entry 5. -/
def Obligations.DisabledOperationsLeaveTheState : Prop :=
  ∀ s : State,
    (s.powered = true → exec .powerOn s = .next s) ∧ (s.powered = false → exec .tick s = .next s) ∧
    (∀ b, s.powered = false ∨ s.mode = .homing → exec (.rxByte b) s = .next s) ∧
    (s.powered = false ∨ s.mode = .run ∨ homeBeats s.cfg s.homeSel ≤ s.homeCnt → exec .homeBeat s = .next s) ∧
    (s.powered = false ∨ s.mode = .run ∨ s.homeCnt ≠ homeBeats s.cfg s.homeSel → exec .homeEnd s = .next s)

/-! ### System commands -/

/-- R129 with the reply of R95: PING emits the eight bytes and changes no register; a Message to the system address with
OPC_SYS_PING is a PING for any accepted sub-address and any payload, one to the device address never is. -/
def Obligations.PingSendsOnlyTheLivenessReply : Prop :=
  (∀ (s : State) (sub : Byte) (payload : List Byte),
    exec (.sysPing sub payload) s = .next { s with
      trace := s.trace ++ [.txBytes [s.cfg.startMarker, 0x00#8, 0x00#8, 0x04#8, s.cfg.opcSysPong, s.cfg.deviceAddress,
        s.cfg.minSub, s.cfg.maxSub]] }) ∧
  (∀ (cfg : Config) (sub : Byte) (payload : List Byte), subAccepted cfg sub = true →
    decodeMessage cfg ⟨systemAddress, sub, some cfg.opcSysPing, payload⟩ = .ok (.sysPing sub payload)) ∧
  (∀ (cfg : Config) (sub op sub' : Byte) (payload payload' : List Byte), cfg.valid = true →
    decodeMessage cfg ⟨cfg.deviceAddress, sub, some op, payload⟩ ≠ .ok (.sysPing sub' payload'))

/-- R95: the eight bytes of the reply, the only bytes any operation sends; they are a frame, which a unit reads as PONG in the
system space. -/
def Obligations.TheOnlyReplyIsTheLivenessFrame : Prop :=
  (∀ cfg : Config, livenessReply cfg =
    [cfg.startMarker, 0x00#8, 0x00#8, 0x04#8, cfg.opcSysPong, cfg.deviceAddress, cfg.minSub, cfg.maxSub]) ∧
  (∀ cfg : Config, cfg.valid = true →
    decode cfg (livenessReply cfg) = .ok (.sysPong 0 [cfg.deviceAddress, cfg.minSub, cfg.maxSub], [])) ∧
  (∀ (i : Instr) (s t : State) (bytes : List Byte), exec i s = .next t → .txBytes bytes ∈ t.trace →
    .txBytes bytes ∈ s.trace ∨ bytes = livenessReply s.cfg)

/-- R144, R146: START, a received PONG and every unknown system command leave the whole state as it is, and each is what its
command byte decodes to in the system space. -/
def Obligations.StartPongAndSystemFallbackAreNoOps : Prop :=
  (∀ (s : State) (sub op : Byte) (payload : List Byte),
    exec (.sysStart sub payload) s = .next s ∧ exec (.sysPong sub payload) s = .next s ∧
    exec (.sysFallback sub op payload) s = .next s) ∧
  (∀ (cfg : Config) (sub op : Byte) (payload : List Byte), cfg.valid = true → subAccepted cfg sub = true →
    decodeMessage cfg (systemMessage sub cfg.opcSysStart payload) = .ok (.sysStart sub payload) ∧
    decodeMessage cfg (systemMessage sub cfg.opcSysPong payload) = .ok (.sysPong sub payload) ∧
    (op ∉ cfg.systemOpcodes → decodeMessage cfg (systemMessage sub op payload) = .ok (.sysFallback sub op payload)))

/-- R141: the empty Message is a no-op for either target, and a frame with `L = 0` is that Message. -/
def Obligations.EmptyMessageIsANoOp : Prop :=
  (∀ (s : State) (target sub : Byte), exec (.empty target sub) s = .next s) ∧
  (∀ (cfg : Config) (target sub : Byte) (rest : List Byte), targetAccepted cfg target = true → subAccepted cfg sub = true →
    decode cfg (cfg.startMarker :: target :: sub :: 0 :: rest) = .ok (.empty target sub, rest))

/-- R145: sequence STOP clears both periods of every channel, or does nothing, as the parameter says. -/
def Obligations.StopSilencesEveryChannelOrNothing : Prop :=
  ∀ (s : State) (sub : Byte) (payload : List Byte),
    (s.cfg.seqStopSilences = true → exec (.sysStop sub payload) s = .next { s with
      lanes := s.lanes.map fun l => { l with ch := { l.ch with curPeriod := 0, origPeriod := 0 } } }) ∧
    (s.cfg.seqStopSilences = false → exec (.sysStop sub payload) s = .next s) ∧
    (s.cfg.valid = true → subAccepted s.cfg sub = true →
      decodeMessage s.cfg (systemMessage sub s.cfg.opcSysStop payload) = .ok (.sysStop sub payload))

/-- R200, R201: a device reset is HOME_BEGIN of its one channel, a system reset HOME_BEGIN of all; each answers a next state
and leaves the payload and the sub-address unread. -/
def Obligations.ResetsBeginHoming : Prop :=
  ∀ (s : State) (sub : Byte) (payload : List Byte),
    (∀ c, c < s.cfg.nch → exec (.devReset c payload) s = .next (homeBegin [c] s) ∧
      exec (.homeBegin [c]) s = .next (homeBegin [c] s) ∧
      (s.cfg.valid = true →
        decodeMessage s.cfg (deviceMessage s.cfg c s.cfg.opcDevReset payload) = .ok (.devReset c payload))) ∧
    exec (.sysReset sub payload) s = .next (homeBegin (List.range s.cfg.nch) s) ∧
    exec (.homeBegin (List.range s.cfg.nch)) s = .next (homeBegin (List.range s.cfg.nch) s) ∧
    (s.cfg.valid = true → subAccepted s.cfg sub = true →
      decodeMessage s.cfg (systemMessage sub s.cfg.opcSysReset payload) = .ok (.sysReset sub payload))

/-- R142: a broadcast RESET is a system reset under both policies; any other broadcast is one under ALL_TO_SYS_RESET and a
no-op under RESET_ONLY. -/
def Obligations.BroadcastFollowsThePolicy : Prop :=
  ∀ (s : State) (op sub : Byte) (payload : List Byte),
    (op = s.cfg.opcDevReset → exec (.broadcast op payload) s = exec (.sysReset sub []) s) ∧
    (s.cfg.broadcastPolicy = .allToSysReset → exec (.broadcast op payload) s = exec (.sysReset sub []) s) ∧
    (op ≠ s.cfg.opcDevReset → s.cfg.broadcastPolicy = .resetOnly → exec (.broadcast op payload) s = .next s) ∧
    exec (.sysReset sub []) s = .next (homeBegin (List.range s.cfg.nch) s) ∧
    (s.cfg.valid = true → decodeMessage s.cfg ⟨s.cfg.deviceAddress, 0, some op, payload⟩ = .ok (.broadcast op payload))

/-! ### Device commands -/

/-- R150: the fallback of the device space and the colour command leave the whole state as it is, and every command byte
that is none of the five handled ones decodes to one of the two. -/
def Obligations.DeviceFallbackAndColourAreNoOps : Prop :=
  (∀ (s : State) (c : Nat) (op : Byte) (payload : List Byte), c < s.cfg.nch →
    exec (.devFallback c op payload) s = .next s ∧ exec (.devSetTargetColor c payload) s = .next s) ∧
  (∀ (cfg : Config) (c : Nat) (op : Byte) (payload : List Byte), cfg.valid = true → c < cfg.nch → op ≠ cfg.opcDevReset →
    op ≠ cfg.opcDevNoteOff → op ≠ cfg.opcDevNoteOn → op ≠ cfg.opcDevBendPitch → op ≠ cfg.opcDevSetMovement →
    decodeMessage cfg (deviceMessage cfg c op payload) =
      .ok (if op = cfg.opcDevSetTargetColor then .devSetTargetColor c payload else .devFallback c op payload))

/-- R148: at every device handler the channel index is below NCH; a Message with any other sub-address, which only a hand
can have built, is refused. -/
def Obligations.OnlyChannelsInRangeAreReached : Prop :=
  (∀ (cfg : Config) (m : Message) (i : Instr) (c : Nat), cfg.valid = true → decodeMessage cfg m = .ok i →
    deviceChannel i = some c → c < cfg.nch) ∧
  (∀ (s : State) (m : Message), subAccepted s.cfg m.sub = false → handOff m s = .refused .badMessage)

/-- R147: a device command writes the lane of its channel and no other, and nothing it writes, in that lane or anywhere else
in the state, depends on any other lane. -/
def Obligations.DeviceCommandsTouchOneChannel : Prop :=
  ∀ (i : Instr) (c : Nat) (s t : State), deviceChannel i = some c → exec i s = .next t →
    (∀ k : Nat, k ≠ c → t.lanes[k]? = s.lanes[k]?) ∧
    (∀ s' : State, s' = { s with lanes := s'.lanes } → s'.lanes[c]? = s.lanes[c]? →
      ∃ t', exec i s' = .next t' ∧ t'.lanes[c]? = t.lanes[c]? ∧ t' = { t with lanes := t'.lanes })

/-- R160, R162, R163: a playable note sets both periods of its channel to the ROM entry, unchanged (R161), and nothing else;
a note whose entry is 0, a note above 127 and a missing note leave the whole state as it is; no byte after the note, a
velocity among them, makes a difference. -/
def Obligations.NoteOnStoresTheRomEntryOrNothing : Prop :=
  ∀ (s : State) (c : Nat) (note : Byte) (rest : List Byte), c < s.cfg.nch →
    (note.toNat ≤ 127 → s.cfg.freqRom.getD note.toNat 0 ≠ 0 →
      exec (.devNoteOn c (note :: rest)) s = .next { s with
        lanes := s.lanes.modify c fun l => { l with ch := { l.ch with
          curPeriod := s.cfg.freqRom.getD note.toNat 0, origPeriod := s.cfg.freqRom.getD note.toNat 0 } } }) ∧
    (127 < note.toNat ∨ s.cfg.freqRom.getD note.toNat 0 = 0 → exec (.devNoteOn c (note :: rest)) s = .next s) ∧
    exec (.devNoteOn c []) s = .next s ∧
    (s.cfg.valid = true → decodeMessage s.cfg (deviceMessage s.cfg c s.cfg.opcDevNoteOn (note :: rest)) =
      .ok (.devNoteOn c (note :: rest)))

/-- R164: NOTE_OFF clears both periods of its channel whatever its payload, and nothing else. -/
def Obligations.NoteOffClearsBothPeriods : Prop :=
  ∀ (s : State) (c : Nat) (payload : List Byte), c < s.cfg.nch →
    exec (.devNoteOff c payload) s = .next { s with
      lanes := s.lanes.modify c fun l => { l with ch := { l.ch with curPeriod := 0, origPeriod := 0 } } } ∧
    (s.cfg.valid = true →
      decodeMessage s.cfg (deviceMessage s.cfg c s.cfg.opcDevNoteOff payload) = .ok (.devNoteOff c payload))

/-- R165: the frame of NOTE_ON, NOTE_OFF and (R166) BEND_PITCH: every register but the two periods of the channel, and for
the bend but CUR_PERIOD, is as before; no pin is driven. -/
def Obligations.NoteAndBendCommandsWriteOnlyPeriods : Prop :=
  ∀ (s t : State) (c : Nat) (payload : List Byte),
    (exec (.devNoteOn c payload) s = .next t ∨ exec (.devNoteOff c payload) s = .next t ∨
      exec (.devBendPitch c payload) s = .next t) →
    t = { s with lanes := t.lanes, freeIdx := t.freeIdx } ∧ t.lanes.length = s.lanes.length ∧
    (∀ (k : Nat) (l : Lane), s.lanes[k]? = some l → ∃ l', t.lanes[k]? = some l' ∧ (k ≠ c → l' = l) ∧
      l' = { l with ch := { l.ch with curPeriod := l'.ch.curPeriod, origPeriod := l'.ch.origPeriod } }) ∧
    (exec (.devBendPitch c payload) s = .next t → (t.chan c).origPeriod = (s.chan c).origPeriod)

/-- R166: a bend with two payload bytes sets CUR_PERIOD to BendScale of ORIG_PERIOD where the deflection is well formed and
the result fits, and to an arbitrary PERIOD_W-bit value (R170) otherwise; with fewer bytes it is a no-op. The arbitrary
value is free value number `freeIdx` (log entry 7). -/
def Obligations.BendRecomputesFromTheOriginalPeriod : Prop :=
  ∀ (s : State) (c : Nat), c < s.cfg.nch →
    (∀ payload : List Byte, payload.length < 2 → exec (.devBendPitch c payload) s = .next s) ∧
    ∀ (hi lo : Byte) (rest : List Byte) (d : Int), d = (hi ++ lo).toInt →
      (-8192 ≤ d → d ≤ 8191 → bendFits s.cfg (s.chan c).origPeriod d = true →
        exec (.devBendPitch c (hi :: lo :: rest)) s = .next { s with
          lanes := s.lanes.modify c fun l => { l with ch := { l.ch with
            curPeriod := bendScale s.cfg l.ch.origPeriod d } } }) ∧
      ((d < -8192 ∨ 8191 < d ∨ bendFits s.cfg (s.chan c).origPeriod d = false) →
        exec (.devBendPitch c (hi :: lo :: rest)) s = .next { s with
          freeIdx := s.freeIdx + 1
          lanes := s.lanes.modify c fun l => { l with ch := { l.ch with
            curPeriod := Config.freePeriod s.freeIdx % 2 ^ s.cfg.periodW } } }) ∧
      (s.cfg.valid = true → decodeMessage s.cfg (deviceMessage s.cfg c s.cfg.opcDevBendPitch (hi :: lo :: rest)) =
        .ok (.devBendPitch c (hi :: lo :: rest)))

/-- R168: BendScale obeys the laws B1 to B4 against the real-valued nominal period of R167, and the result is left open
exactly where the nominal period does not fit (B5). -/
def Obligations.BendScaleObeysItsLaws : Prop :=
  ∀ cfg : Config, cfg.valid = true →
    (∀ p, p < 2 ^ cfg.periodW → bendFits cfg p 0 = true ∧ bendScale cfg p 0 = p) ∧
    (∀ d, bendFits cfg 0 d = true ∧ bendScale cfg 0 d = 0) ∧
    (∀ (cfg' : Config) (p : Nat) (d : Int), cfg'.bendOctaves = cfg.bendOctaves → bendFits cfg p d = true →
      bendFits cfg' p d = true → bendScale cfg' p d = bendScale cfg p d) ∧
    (∀ (p : Nat) (d : Int), p < 2 ^ cfg.periodW → -8192 ≤ d → d ≤ 8191 →
      (bendFits cfg p d = true ↔
        (p : ℝ) / (2 : ℝ) ^ ((cfg.bendOctaves : ℝ) * (d : ℝ) / 8192) ≤ (2 : ℝ) ^ cfg.periodW - 1) ∧
      (bendFits cfg p d = true →
        ⌊(p : ℝ) / (2 : ℝ) ^ ((cfg.bendOctaves : ℝ) * (d : ℝ) / 8192)⌋ ≤ (bendScale cfg p d : ℤ) ∧
        (bendScale cfg p d : ℤ) ≤ ⌈(p : ℝ) / (2 : ℝ) ^ ((cfg.bendOctaves : ℝ) * (d : ℝ) / 8192)⌉))

/-- R171: a bend by 0 restores the original period exactly whatever the current one, and two bends by the same deflection of
the same original period give the same current period whatever came between. -/
def Obligations.BendsDoNotDrift : Prop :=
  (∀ (s : State) (c : Nat) (rest : List Byte), c < s.cfg.nch → (s.chan c).origPeriod < 2 ^ s.cfg.periodW →
    exec (.devBendPitch c (0 :: 0 :: rest)) s = .next { s with
      lanes := s.lanes.modify c fun l => { l with ch := { l.ch with curPeriod := l.ch.origPeriod } } }) ∧
  (∀ (s s' t t' : State) (c : Nat) (hi lo : Byte) (rest rest' : List Byte), s'.cfg = s.cfg → c < s.lanes.length →
    c < s'.lanes.length → (s'.chan c).origPeriod = (s.chan c).origPeriod →
    bendDefined s.cfg (s.chan c).origPeriod (hi ++ lo).toInt = true →
    exec (.devBendPitch c (hi :: lo :: rest)) s = .next t → exec (.devBendPitch c (hi :: lo :: rest')) s' = .next t' →
    (t'.chan c).curPeriod = (t.chan c).curPeriod)

/-- R169 (a), (b): a well-formed bend of a channel whose original period is 0 leaves it silent. -/
def Obligations.BendNeverStartsANote : Prop :=
  ∀ (s : State) (c : Nat) (hi lo : Byte) (rest : List Byte), c < s.cfg.nch → c < s.lanes.length →
    (s.chan c).origPeriod = 0 → deflectionOk (hi ++ lo).toInt = true →
    ∃ t, exec (.devBendPitch c (hi :: lo :: rest)) s = .next t ∧ (t.chan c).curPeriod = 0 ∧ (t.chan c).origPeriod = 0 ∧
      t.freeIdx = s.freeIdx

/-- R151: SET_MOVEMENT writes both bounds of its channel, the full range for mode 0 and the constrained range otherwise, and
nothing else; without a payload it is a no-op. -/
def Obligations.SetMovementSelectsTheBounds : Prop :=
  ∀ (s : State) (c : Nat) (rest : List Byte), c < s.cfg.nch →
    exec (.devSetMovement c []) s = .next s ∧
    exec (.devSetMovement c (0 :: rest)) s = .next { s with
      lanes := s.lanes.modify c fun l => { l with ch := { l.ch with
        minPos := s.cfg.fullMin c, maxPos := s.cfg.fullMaxAt c } } } ∧
    (∀ mode : Byte, mode ≠ 0 → exec (.devSetMovement c (mode :: rest)) s = .next { s with
      lanes := s.lanes.modify c fun l => { l with ch := { l.ch with
        minPos := s.cfg.constrMinAt c, maxPos := s.cfg.constrMaxAt c } } }) ∧
    (s.cfg.valid = true →
      decodeMessage s.cfg (deviceMessage s.cfg c s.cfg.opcDevSetMovement rest) = .ok (.devSetMovement c rest))

/-! ### The tick -/

/-- R184: STEP tests the upper bound, then the lower, moves one unit in the direction just written, complements the output
and calls `apply` with the new record. -/
def Obligations.StepTurnsAtTheBoundsAndToggles : Prop :=
  ∀ (cfg : Config) (c : Nat) (l : Lane),
    (stepLane cfg c l = applyLane cfg c l.ch.dir { l with ch := (stepLane cfg c l).lane.ch }) ∧
    (l.ch.maxPos ≤ l.ch.position →
      (stepLane cfg c l).lane.ch = { l.ch with dir := .reverse, position := l.ch.position - 1, out := !l.ch.out }) ∧
    (l.ch.position < l.ch.maxPos → l.ch.position ≤ l.ch.minPos →
      (stepLane cfg c l).lane.ch = { l.ch with dir := .forward, position := l.ch.position + 1, out := !l.ch.out }) ∧
    (l.ch.minPos < l.ch.position → l.ch.position < l.ch.maxPos →
      (stepLane cfg c l).lane.ch = { l.ch with
        position := if l.ch.dir = .forward then l.ch.position + 1 else l.ch.position - 1, out := !l.ch.out })

/-- R180 to R184: TICK on every record, and its frame: nothing but the records, the phases, the latch and the trace
changes, and the trace only grows. -/
def Obligations.TickCountsComparesAndSteps : Prop :=
  ∀ s : State, s.powered = true → ∃ t, exec .tick s = .next t ∧
    t = { s with lanes := t.lanes, trace := t.trace, srLatch := t.srLatch } ∧ (∃ outs, t.trace = s.trace ++ outs) ∧
    t.lanes.length = s.lanes.length ∧
    ∀ (c : Nat) (l : Lane), s.lanes[c]? = some l → ∃ l', t.lanes[c]? = some l' ∧
      (l.ch.curPeriod = 0 → l' = l) ∧
      (l.ch.curPeriod ≠ 0 → l.ch.elapsed + 1 < l.ch.curPeriod →
        l' = { l with ch := { l.ch with elapsed := l.ch.elapsed + 1 } }) ∧
      (stepDue l → l'.ch = { l.ch with
        elapsed := 0
        dir := if l.ch.position ≥ l.ch.maxPos then .reverse
          else if l.ch.position ≤ l.ch.minPos then .forward else l.ch.dir
        position := if l.ch.position ≥ l.ch.maxPos then l.ch.position - 1
          else if l.ch.position ≤ l.ch.minPos then l.ch.position + 1
          else if l.ch.dir = .forward then l.ch.position + 1 else l.ch.position - 1
        out := !l.ch.out })

/-- R224, R227, R229, R233, R76: TICK is the operation `tick` in every powered state (R180), and the output events of a TICK and the backend state after it, backend by backend. -/
def Obligations.TickDrivesTheBackend : Prop :=
  ∀ s : State,
    (s.powered = true → exec .tick s = .next (tick s)) ∧
    (s.cfg.backend = .directPin → (tick s).srLatch = s.srLatch ∧
      (tick s).lanes.map (·.phase) = s.lanes.map (·.phase) ∧
      (tick s).trace = s.trace ++ (s.lanes.mapIdx fun c l =>
        if stepDue l then
          (if stepDir l.ch = l.ch.dir then [] else [.pinWrite (.dir c) (stepDir l.ch).level]) ++
            [.pinWrite (.step c) (!l.ch.out)]
        else []).flatten) ∧
    (s.cfg.backend = .shiftRegister → (tick s).lanes.map (·.phase) = s.lanes.map (·.phase) ∧
      ((∃ l ∈ s.lanes, stepDue l) → (tick s).srLatch = packOuts (tick s).lanes ∧
        (tick s).trace = s.trace ++ [.srCommit (packOuts (tick s).lanes)]) ∧
      ((∀ l ∈ s.lanes, ¬ stepDue l) → (tick s).srLatch = s.srLatch ∧ (tick s).trace = s.trace)) ∧
    (s.cfg.backend = .hBridge → (tick s).srLatch = s.srLatch ∧
      (tick s).lanes.map (·.phase) = s.lanes.map (fun l =>
        if stepDue l then nextPhase s.cfg.stepTable.length (stepDir l.ch) l.phase else l.phase) ∧
      (tick s).trace = s.trace ++ (s.lanes.mapIdx fun c l =>
        if stepDue l then
          [.bridgeWrite c (s.cfg.stepTable.getD (nextPhase s.cfg.stepTable.length (stepDir l.ch) l.phase) 0)]
        else []).flatten)

/-- R181: a silent channel's registers are the same after any number of TICKs, no TICK emits an event of its pins, and TICKs
in which every channel is silent change nothing and emit nothing. -/
def Obligations.SilentChannelsNeverAdvance : Prop :=
  (∀ (s : State) (c : Nat) (l : Lane) (k : Nat), s.lanes[c]? = some l → l.ch.curPeriod = 0 →
    (tick^[k] s).lanes[c]? = some l ∧ ∀ o ∈ (tick^[k] s).trace.drop s.trace.length, o.drives c = false) ∧
  (∀ (s : State) (k : Nat), (∀ l ∈ s.lanes, l.ch.curPeriod = 0) → tick^[k] s = s)

/-- R172: a command that leaves count `e` under period `p > 0` sees the next step at the `max(1, p - e)`-th following TICK
and at none before it. -/
def Obligations.NextStepComesWhenTheCountReachesThePeriod : Prop :=
  ∀ (s : State) (c : Nat) (l : Lane), s.lanes[c]? = some l → 0 < l.ch.curPeriod →
    (∀ k, k < max 1 (l.ch.curPeriod - l.ch.elapsed) →
      ∃ l', (tick^[k] s).lanes[c]? = some l' ∧ l'.ch = { l.ch with elapsed := l.ch.elapsed + k }) ∧
    ∃ l', (tick^[max 1 (l.ch.curPeriod - l.ch.elapsed)] s).lanes[c]? = some l' ∧
      l'.ch = stepChannel { l.ch with elapsed := 0 }

/-- R29, R186: (I1) after every TICK a playing channel's count is below its period, and a count found at or above it gives
one step however large it was; (I2) a step keeps the position within bounds that are in order; a channel whose period is 0 makes no transition and one that makes none for want of a period has
period 0. -/
def Obligations.TickRestoresTheRecordInvariants : Prop :=
  ∀ (s : State) (c : Nat) (l l' : Lane), s.lanes[c]? = some l → (tick s).lanes[c]? = some l' →
    (0 < l'.ch.curPeriod → l'.ch.elapsed < l'.ch.curPeriod) ∧
    (l.ch.minPos ≤ l.ch.position → l.ch.position ≤ l.ch.maxPos → l.ch.minPos < l.ch.maxPos →
      l'.ch.minPos ≤ l'.ch.position ∧ l'.ch.position ≤ l'.ch.maxPos) ∧
    (l.ch.curPeriod = 0 → l'.ch.out = l.ch.out ∧ l'.ch.position = l.ch.position) ∧
    (l.ch.curPeriod ≠ 0 → l.ch.curPeriod ≤ l.ch.elapsed + 1 → l'.ch.out ≠ l.ch.out) ∧
    (0 < l.ch.curPeriod → l.ch.curPeriod ≤ l.ch.elapsed → l'.ch.elapsed = 0 ∧ l'.ch.out = !l.ch.out ∧
      (l'.ch.position = l.ch.position + 1 ∨ l'.ch.position = l.ch.position - 1))

/-- R185: from above the upper bound every step goes down until the position is the bound, from where the step goes inside;
from below the lower bound likewise up. -/
def Obligations.PositionWalksBackToTheBounds : Prop :=
  (∀ (ch : Channel) (n : Nat), ch.position = ch.maxPos + n →
    (∀ k, k ≤ n → (stepChannel^[k] ch).position = ch.position - k) ∧ (stepChannel^[n] ch).position = ch.maxPos ∧
    (stepChannel^[n + 1] ch).position = ch.maxPos - 1) ∧
  (∀ (ch : Channel) (n : Nat), ch.position = ch.minPos - n → ch.minPos < ch.maxPos →
    (∀ k, k ≤ n → (stepChannel^[k] ch).position = ch.position + k) ∧ (stepChannel^[n] ch).position = ch.minPos ∧
    (stepChannel^[n + 1] ch).position = ch.minPos + 1)

/-- R188: what TICK does to a lane depends on that lane's registers and the configuration alone; R180: of its own record it
never reads ORIG_PERIOD. -/
def Obligations.LanesAreIndependentInATick : Prop :=
  (∀ (s s' : State) (c : Nat), s'.cfg = s.cfg → s'.lanes[c]? = s.lanes[c]? →
    (tick s').lanes[c]? = (tick s).lanes[c]?) ∧
  (∀ (s : State) (f : Nat → Nat),
    let blind (t : State) : State :=
      { t with lanes := t.lanes.map fun l => { l with ch := { l.ch with origPeriod := f l.ch.origPeriod } } }
    tick (blind s) = blind (tick s))

/-! ### Homing -/

/-- R203: HOME_BEGIN silences the selected channels, forces them to reverse, lets the direction pins follow and enters
HOMING; everything else stands. -/
def Obligations.HomeBeginSilencesAndReverses : Prop :=
  ∀ (s : State) (sel : List Nat), selectionOk s.cfg sel = true → ∃ t, exec (.homeBegin sel) s = .next t ∧
    t = { s with lanes := t.lanes, trace := t.trace, homeSel := sel, homeCnt := 0, mode := .homing } ∧
    t.lanes = (s.lanes.mapIdx fun c l =>
      if c ∈ sel then { l with ch := { l.ch with curPeriod := 0, origPeriod := 0, dir := .reverse } } else l) ∧
    t.trace = s.trace ++ (if s.cfg.backend = .directPin then
      (s.lanes.mapIdx fun c l =>
        if c ∈ sel ∧ l.ch.dir = .forward then [Output.pinWrite (.dir c) true] else []).flatten
      else [])

/-- R205: an enabled HOME_BEAT counts itself and toggles the output of each selected channel whose own number of beats is
not used up; records are otherwise as before. -/
def Obligations.HomeBeatTogglesTheDrivenChannels : Prop :=
  ∀ s : State, s.powered = true → s.mode = .homing → s.homeCnt < homeBeats s.cfg s.homeSel →
    ∃ t, exec .homeBeat s = .next t ∧
      t = { s with lanes := t.lanes, trace := t.trace, srLatch := t.srLatch, homeCnt := s.homeCnt + 1 } ∧
      t.lanes.length = s.lanes.length ∧
      (∀ (c : Nat) (l : Lane), s.lanes[c]? = some l → ∃ l', t.lanes[c]? = some l' ∧
        (c ∈ s.homeSel → s.homeCnt + 1 ≤ s.cfg.homeTransitions.getD c 0 → l'.ch = { l.ch with out := !l.ch.out } ∧
          l'.phase = (if s.cfg.backend = .hBridge then nextPhase s.cfg.stepTable.length l.ch.dir l.phase else l.phase)) ∧
        (c ∉ s.homeSel ∨ s.cfg.homeTransitions.getD c 0 < s.homeCnt + 1 → l' = l)) ∧
      (s.cfg.backend = .directPin → t.srLatch = s.srLatch ∧ t.trace = s.trace ++ (s.lanes.mapIdx fun c l =>
        if c ∈ s.homeSel ∧ s.homeCnt + 1 ≤ s.cfg.homeTransitions.getD c 0 then
          [Output.pinWrite (.step c) (!l.ch.out)] else []).flatten) ∧
      (s.cfg.backend = .shiftRegister →
        (∃ c ∈ s.homeSel, c < s.lanes.length ∧ s.homeCnt + 1 ≤ s.cfg.homeTransitions.getD c 0) →
        t.srLatch = packOuts t.lanes ∧ t.trace = s.trace ++ [.srCommit (packOuts t.lanes)]) ∧
      (s.cfg.backend = .hBridge → t.srLatch = s.srLatch ∧ t.trace = s.trace ++ (s.lanes.mapIdx fun c l =>
        if c ∈ s.homeSel ∧ s.homeCnt + 1 ≤ s.cfg.homeTransitions.getD c 0 then
          [Output.bridgeWrite c
            (s.cfg.stepTable.getD (nextPhase s.cfg.stepTable.length l.ch.dir l.phase) 0)] else []).flatten)

/-- R206: an enabled HOME_END sets the selected records to the ready/forward state, lets the direction pins follow and
returns to RUN; OUT and everything else stand. -/
def Obligations.HomeEndSetsTheReadyState : Prop :=
  ∀ s : State, s.powered = true → s.mode = .homing → s.homeCnt = homeBeats s.cfg s.homeSel →
    ∃ t, exec .homeEnd s = .next t ∧
      t = { s with lanes := t.lanes, trace := t.trace, homeSel := [], homeCnt := 0, mode := .run } ∧
      t.lanes = (s.lanes.mapIdx fun c l =>
        if c ∈ s.homeSel then { l with ch := { l.ch with position := 0, elapsed := 0, dir := .forward } } else l) ∧
      t.trace = s.trace ++ (if s.cfg.backend = .directPin then
        (s.lanes.mapIdx fun c l =>
          if c ∈ s.homeSel ∧ l.ch.dir = .reverse then [Output.pinWrite (.dir c) false] else []).flatten
        else [])

/-- R204: while HOMING exactly one of HOME_BEAT and HOME_END is enabled and MAIN's turn is that one, TICK answers a next
state, RX_BYTE is not enabled; while RUN neither homing member is. -/
def Obligations.ExactlyOneHomingMemberIsEnabled : Prop :=
  (∀ s : State, s.powered = true → s.mode = .homing → s.homeCnt ≤ homeBeats s.cfg s.homeSel →
    (homeBeatEnabled s = true ↔ s.homeCnt < homeBeats s.cfg s.homeSel) ∧
    (homeEndEnabled s = true ↔ s.homeCnt = homeBeats s.cfg s.homeSel) ∧
    (homeBeatEnabled s = true ↔ homeEndEnabled s = false) ∧ exec .tick s = .next (tick s) ∧ rxEnabled s = false ∧
    (homeBeatEnabled s = true → mainTurn s = exec .homeBeat s) ∧
    (homeEndEnabled s = true → mainTurn s = exec .homeEnd s)) ∧
  (∀ s : State, s.mode = .run → homeBeatEnabled s = false ∧ homeEndEnabled s = false)

/-- R211 with R202: HOME_BEGIN, exactly N(S) beats with any number of TICKs anywhere among them, and HOME_END: each beat and
the end are enabled when they come; every selected channel is silent and in reverse throughout and ends at its initial
values, with exactly HOME_TRANSITIONS[c] output transitions: changes of OUT[c] along the run under every backend, writes of
its step pin in DIRECT_PIN, of its bridge in H_BRIDGE; every other lane is what the TICKs alone make of it. -/
def Obligations.ResetSequenceReachesTheReadyState : Prop :=
  ∀ (s : State) (sel : List Nat) (ops : List Bool), s.powered = true → selectionOk s.cfg sel = true →
    ops.count true = homeBeats s.cfg sel →
    (∀ k, ops[k]? = some true → homeBeatEnabled (homingRun (homeBegin sel s) (ops.take k)) = true) ∧
    homeEndEnabled (homingRun (homeBegin sel s) ops) = true ∧
    (∀ (k c : Nat) (l : Lane), c ∈ sel → (homingRun (homeBegin sel s) (ops.take k)).lanes[c]? = some l →
      l.ch.curPeriod = 0 ∧ l.ch.dir = .reverse) ∧
    (let u := homeEnd (homingRun (homeBegin sel s) ops)
     u.mode = .run ∧ u.homeSel = [] ∧ u.homeCnt = 0 ∧
     (∀ c, c ∉ sel → u.lanes[c]? = (tick^[ops.count false] s).lanes[c]?) ∧
     ∀ (c : Nat) (l : Lane), c ∈ sel → s.lanes[c]? = some l → ∃ l', u.lanes[c]? = some l' ∧
       l'.ch.curPeriod = 0 ∧ l'.ch.origPeriod = 0 ∧ l'.ch.elapsed = 0 ∧ l'.ch.position = 0 ∧ l'.ch.dir = .forward ∧
       l'.ch.minPos = l.ch.minPos ∧ l'.ch.maxPos = l.ch.maxPos ∧
       l'.ch.out = (l.ch.out ^^ decide (s.cfg.homeTransitions.getD c 0 % 2 = 1)) ∧
       outChanges c (homeBegin sel s) ops = s.cfg.homeTransitions.getD c 0 ∧
       (s.cfg.backend = .directPin →
         (u.trace.drop s.trace.length).countP (Output.isStepWrite c) = s.cfg.homeTransitions.getD c 0) ∧
       (s.cfg.backend = .hBridge →
         (u.trace.drop s.trace.length).countP (Output.isBridgeWrite c) = s.cfg.homeTransitions.getD c 0))

/-! ### The ingress -/

/-- R121: in SEEK only the start marker is taken. -/
def Obligations.SeekTakesOnlyTheMarker : Prop :=
  ∀ (s : State) (b : Byte), s.powered = true → s.mode = .run → s.pstate = .seek →
    (b = s.cfg.startMarker → exec (.rxByte b) s = .next { s with pstate := .target }) ∧
    (b ≠ s.cfg.startMarker → exec (.rxByte b) s = .next s)

/-- R122: in TARGET the system address and this unit's own are taken, any other byte abandons the frame. -/
def Obligations.TargetTakesSystemAndOwnAddress : Prop :=
  ∀ (s : State) (b : Byte), s.powered = true → s.mode = .run → s.pstate = .target →
    (b = 0x00#8 ∨ b = s.cfg.deviceAddress → exec (.rxByte b) s = .next { s with fTarget := b, pstate := .sub }) ∧
    (b ≠ 0x00#8 → b ≠ s.cfg.deviceAddress → exec (.rxByte b) s = .next { s with pstate := .seek })

/-- R123: in SUB the broadcast and the configured range are taken, for every target, any other byte abandons the frame. -/
def Obligations.SubTakesBroadcastAndRange : Prop :=
  ∀ (s : State) (b : Byte), s.powered = true → s.mode = .run → s.pstate = .sub →
    (b = 0x00#8 ∨ (s.cfg.minSub.toNat ≤ b.toNat ∧ b.toNat ≤ s.cfg.maxSub.toNat) →
      exec (.rxByte b) s = .next { s with fSub := b, pstate := .len }) ∧
    (b ≠ 0x00#8 → (b.toNat < s.cfg.minSub.toNat ∨ s.cfg.maxSub.toNat < b.toNat) →
      exec (.rxByte b) s = .next { s with pstate := .seek })

/-- R124: in LEN every byte is the length; a length of 0 completes the frame, whose Message is empty and does nothing. -/
def Obligations.LenStartsTheBodyOrEndsTheFrame : Prop :=
  ∀ (s : State) (b : Byte), s.powered = true → s.mode = .run → s.pstate = .len →
    (b ≠ 0 → exec (.rxByte b) s = .next { s with fLen := b, fCnt := 0, pstate := .body }) ∧
    (b = 0 → targetAccepted s.cfg s.fTarget = true → subAccepted s.cfg s.fSub = true →
      exec (.rxByte b) s = .next { s with fLen := 0, fCnt := 0, pstate := .seek })

/-- R125 and R126: in BODY every byte is data; the last one completes the frame and runs what its Message decodes to in the
same operation, on the state the parser leaves. -/
def Obligations.BodyCollectsAndHandsOff : Prop :=
  ∀ (s : State) (b : Byte), s.powered = true → s.mode = .run → s.pstate = .body →
    (s.fCnt + 1 ≠ s.fLen → exec (.rxByte b) s = .next { s with
      fBody := s.fBody.set s.fCnt.toNat b, fCnt := s.fCnt + 1, pstate := .body }) ∧
    (s.fCnt + 1 = s.fLen → ∀ i,
      decodeMessage s.cfg (messageOf s.fTarget s.fSub ((s.fBody.set s.fCnt.toNat b).take s.fLen.toNat)) = .ok i →
      exec (.rxByte b) s = exec i { s with
        fBody := s.fBody.set s.fCnt.toNat b, fCnt := s.fCnt + 1, pstate := .seek })

/-- R131: the parser's own work writes PSTATE and the partial-frame registers only; a byte that completes no frame has no
other effect, and one that does acts through the hand-off. -/
def Obligations.ParserWritesNoChannelRegister : Prop :=
  ∀ (s : State) (b : Byte),
    (let t := (parseByte b s).1
     t = { s with pstate := t.pstate, fTarget := t.fTarget, fSub := t.fSub, fLen := t.fLen, fCnt := t.fCnt,
                  fBody := t.fBody }) ∧
    (rxEnabled s = true → (parseByte b s).2 = false → exec (.rxByte b) s = .next (parseByte b s).1) ∧
    (rxEnabled s = true → (parseByte b s).2 = true →
      exec (.rxByte b) s = handOff (heldMessage (parseByte b s).1) (parseByte b s).1)

/-- R126, R128, R90: the bytes of a well-formed command's frame, consumed one by one from SEEK, do exactly what the command
does, on the state that differs in the partial-frame registers only. -/
def Obligations.FrameBytesRunTheirCommand : Prop :=
  ∀ (s : State) (i : Instr) (bytes : List Byte) (target sub : Byte) (body : List Byte),
    s.cfg.valid = true → s.powered = true → s.mode = .run → s.pstate = .seek → s.fBody.length = 255 →
    wellFormed s.cfg i = true → encode s.cfg i = some bytes → bytes = frameBytes s.cfg target sub body →
    rxBytes bytes s = exec i (s.afterFrame target sub body)

/-- R128 (its second law, under its condition) with R121: noise without a start marker, met in SEEK, does not change what
the bytes after it do. -/
def Obligations.NoiseInSeekIsSkipped : Prop :=
  ∀ (noise bytes : List Byte) (s : State), s.powered = true → s.mode = .run → s.pstate = .seek →
    s.cfg.startMarker ∉ noise → rxBytes (noise ++ bytes) s = rxBytes bytes s

/-! ### Encoding -/

/-- Words of the encoding written out from R90 to R105 under the spec's default numbers. -/
def Obligations.FramesOfEachKindDecode : Prop :=
  decode Config.default [0x4D, 0x00, 0x00, 0x01, 0x80] = .ok (.sysPing 0 [], []) ∧
  decode Config.default [0x4D, 0x00, 0x03, 0x02, 0xFF, 0x55] = .ok (.sysReset 3 [0x55], []) ∧
  decode Config.default [0x4D, 0x01, 0x01, 0x02, 0x09, 0x3C] = .ok (.devNoteOn 0 [0x3C], []) ∧
  decode Config.default [0x4D, 0x01, 0x08, 0x03, 0x0E, 0xE0, 0x00, 0x77] = .ok (.devBendPitch 7 [0xE0, 0x00], [0x77]) ∧
  decode Config.default [0x4D, 0x01, 0x00, 0x01, 0x00] = .ok (.broadcast 0 [], []) ∧
  decode Config.default [0x4D, 0x01, 0x01, 0x00] = .ok (.empty 1 1, []) ∧
  decode Config.default [0x4D, 0x02, 0x01, 0x00] = .error .foreignTarget ∧
  decode Config.default [0x4D, 0x01, 0x09, 0x00] = .error .badSubAddress ∧
  decode Config.default [0x00, 0x4D] = .error .noStartMarker ∧
  decode Config.default [0x4D, 0x01, 0x01, 0x02, 0x09] = .error .needMoreBytes

/-- R90 to R98: decoding the frame of a well-formed command gives the command back, with the bytes after the frame left. -/
def Obligations.DecodeInvertsEncode : Prop :=
  ∀ (cfg : Config) (i : Instr) (bytes rest : List Byte), cfg.valid = true → wellFormed cfg i = true →
    encode cfg i = some bytes → decode cfg (bytes ++ rest) = .ok (i, rest)

/-- R90 to R98: whatever the decoder accepts is the frame of what it answers, followed by the bytes it leaves, and what it
answers is well formed; so no two frames are one command and no frame bit is dropped. -/
def Obligations.EncodeInvertsDecode : Prop :=
  ∀ (cfg : Config) (i : Instr) (bytes rest : List Byte), cfg.valid = true → decode cfg bytes = .ok (i, rest) →
    wellFormed cfg i = true ∧ ∃ frame, encode cfg i = some frame ∧ bytes = frame ++ rest

/-- R152 with R98: every Message with accepted addresses decodes to exactly one operation, which answers a next state. -/
def Obligations.DispatchIsTotal : Prop :=
  ∀ (s : State) (m : Message), s.cfg.valid = true → targetAccepted s.cfg m.target = true → subAccepted s.cfg m.sub = true →
    ∃ i t, decodeMessage s.cfg m = .ok i ∧ handOff m s = .next t ∧ exec i s = .next t

/-! ### The output sequencer -/

/-- R238: what each call does in each backend. -/
def Obligations.BackendCallsFollowTheSummary : Prop :=
  ∀ (cfg : Config) (c : Nat) (level now : Dir) (l : Lane) (s : State),
    (cfg.backend = .directPin →
      (applyLane cfg c level l).lane = l ∧
      (level = l.ch.dir → (applyLane cfg c level l).outs = [.pinWrite (.step c) l.ch.out]) ∧
      (level ≠ l.ch.dir →
        (applyLane cfg c level l).outs = [.pinWrite (.dir c) l.ch.dir.level, .pinWrite (.step c) l.ch.out]) ∧
      (level = now → dirUpdate cfg c level now = []) ∧
      (level ≠ now → dirUpdate cfg c level now = [.pinWrite (.dir c) now.level])) ∧
    (cfg.backend = .shiftRegister → applyLane cfg c level l = ⟨l, [], true⟩ ∧ dirUpdate cfg c level now = []) ∧
    (cfg.backend = .hBridge → dirUpdate cfg c level now = [] ∧
      (l.ch.dir = .forward → applyLane cfg c level l =
        ⟨{ l with phase := (l.phase + 1) % cfg.stepTable.length },
          [.bridgeWrite c (cfg.stepTable.getD ((l.phase + 1) % cfg.stepTable.length) 0)], true⟩) ∧
      (l.ch.dir = .reverse → applyLane cfg c level l =
        ⟨{ l with phase := (l.phase + cfg.stepTable.length - 1) % cfg.stepTable.length },
          [.bridgeWrite c (cfg.stepTable.getD ((l.phase + cfg.stepTable.length - 1) % cfg.stepTable.length) 0)], true⟩)) ∧
    (s.cfg.backend = .shiftRegister → commitBatch s =
      { s with srLatch := packOuts s.lanes, trace := s.trace ++ [.srCommit (packOuts s.lanes)] }) ∧
    (s.cfg.backend ≠ .shiftRegister → commitBatch s = s)

/-- R228: bit `c` of the packed word is OUT[c], and the bits from NCH on are 0. -/
def Obligations.PackedBitIsTheChannelsOutput : Prop :=
  (∀ (lanes : List Lane) (c : Nat) (l : Lane), lanes[c]? = some l → (packOuts lanes).testBit c = l.ch.out) ∧
  (∀ (lanes : List Lane) (i : Nat), lanes.length ≤ i → (packOuts lanes).testBit i = false)

/-- R224: in the direct-pin backend every step keeps the step pins at OUT and the direction pins at DIR. R233, R235, R282: in
the H-bridge backend every step keeps the bridge pins at 0, from power-on, or at the table entry of the phase. -/
def Obligations.PinsFollowTheRegisters : Prop :=
  (∀ s t : State, s.cfg.backend = .directPin → PinsFollow s → step s = .next t → PinsFollow t) ∧
  (∀ s t : State, s.cfg.backend = .hBridge → BridgeFollows s → step s = .next t → BridgeFollows t)

/-- R228, R229: in the shift-register backend every step keeps the latch at the last committed word and that word at the
packed outputs. -/
def Obligations.LatchFollowsTheOutputs : Prop :=
  ∀ s t : State, s.cfg.backend = .shiftRegister → LatchFollows s → step s = .next t → LatchFollows t

/-- R237: from states that differ in the backend, its own state and the trace only, a step answers states that differ in
those only. -/
def Obligations.CoreIsBackendAgnostic : Prop :=
  ∀ s s' t t' : State, s.core = s'.core → step s = .next t → step s' = .next t' → t.core = t'.core

/-! ### The whole machine -/

/-- R35, R42, R78: no operation writes a constant of the configuration. -/
def Obligations.ConfigurationIsNeverWritten : Prop :=
  (∀ (i : Instr) (s t : State), exec i s = .next t → t.cfg = s.cfg) ∧
  (∀ s t : State, step s = .next t → t.cfg = s.cfg)

/-- R28: which operations can change each register of the channel records. SYS_STOP writes both periods as R145 says, which
R22 and the table of R28 do not list for ORIG_PERIOD (log entry 21). RX_BYTE is left out because it contains the
command it completes, POWER_ON because it creates the records. -/
def Obligations.EachRegisterHasItsWriters : Prop :=
  ∀ (i : Instr) (s t : State), exec i s = .next t → (∀ b, i ≠ .rxByte b) → i ≠ .powerOn →
    (t.lanes.map (·.ch.elapsed) ≠ s.lanes.map (·.ch.elapsed) → i = .tick ∨ i = .homeEnd) ∧
    (t.lanes.map (·.ch.position) ≠ s.lanes.map (·.ch.position) → i = .tick ∨ i = .homeEnd) ∧
    (t.lanes.map (·.ch.out) ≠ s.lanes.map (·.ch.out) → i = .tick ∨ i = .homeBeat) ∧
    (t.lanes.map (fun l => (l.ch.minPos, l.ch.maxPos)) ≠ s.lanes.map (fun l => (l.ch.minPos, l.ch.maxPos)) →
      ∃ c p, i = .devSetMovement c p) ∧
    (t.lanes.map (·.ch.dir) ≠ s.lanes.map (·.ch.dir) →
      i = .tick ∨ i = .homeEnd ∨ (∃ sel, i = .homeBegin sel) ∨ (∃ c p, i = .devReset c p) ∨
        (∃ sub p, i = .sysReset sub p) ∨ ∃ op p, i = .broadcast op p) ∧
    (t.lanes.map (·.ch.origPeriod) ≠ s.lanes.map (·.ch.origPeriod) →
      (∃ c p, i = .devNoteOn c p) ∨ (∃ c p, i = .devNoteOff c p) ∨ (∃ sub p, i = .sysStop sub p) ∨
        (∃ sel, i = .homeBegin sel) ∨ (∃ c p, i = .devReset c p) ∨ (∃ sub p, i = .sysReset sub p) ∨
        ∃ op p, i = .broadcast op p) ∧
    (t.lanes.map (·.ch.curPeriod) ≠ s.lanes.map (·.ch.curPeriod) →
      (∃ c p, i = .devNoteOn c p) ∨ (∃ c p, i = .devNoteOff c p) ∨ (∃ c p, i = .devBendPitch c p) ∨
        (∃ sub p, i = .sysStop sub p) ∨ (∃ sel, i = .homeBegin sel) ∨ (∃ c p, i = .devReset c p) ∨
        (∃ sub p, i = .sysReset sub p) ∨ ∃ op p, i = .broadcast op p)

/-- R43, R210: a channel plays exactly when its period is not 0. Once powered it enters Homing only by the byte that
completes the frame of a resetting command while RUN, with no beat done (the startup entry of POWER_ON is the one of
PowerOnWritesTheInitialRecordsAndCommits). It leaves Homing only when all beats are done, to Idle and RUN. -/
def Obligations.ChannelsFollowTheLifecycle : Prop :=
  ∀ (s t : State) (c : Nat), s.Inv → c < s.cfg.nch → s.powered = true → step s = .next t →
    (s.life c = .playing ↔ 0 < (s.chan c).curPeriod) ∧
    (s.life c ≠ .homing → t.life c = .homing → s.mode = .run ∧ s.pstate = .body ∧ s.fCnt + 1 = s.fLen ∧ t.homeCnt = 0 ∧
      ∃ b queue i, s.rxQueue = b :: queue ∧
        decodeMessage s.cfg (messageOf s.fTarget s.fSub ((s.fBody.set s.fCnt.toNat b).take s.fLen.toNat)) = .ok i ∧
        startsReset s.cfg i) ∧
    (s.life c = .homing → t.life c ≠ .homing →
      t.life c = .idle ∧ t.mode = .run ∧ s.homeCnt = homeBeats s.cfg s.homeSel)

/-- R70, R120, R126: a turn of MAIN whose byte completes a frame runs the operation the frame decodes to, on the state with
the turn and the byte taken and the parser back in SEEK. -/
def Obligations.StepRunsTheDecodedCommand : Prop :=
  ∀ (s : State) (turns : List Turn) (b : Byte) (queue : List Byte) (i : Instr),
    s.powered = true → s.schedule = .main :: turns → s.mode = .run → s.rxQueue = b :: queue → s.pstate = .body →
    s.fCnt + 1 = s.fLen →
    decodeMessage s.cfg (messageOf s.fTarget s.fSub ((s.fBody.set s.fCnt.toNat b).take s.fLen.toNat)) = .ok i →
    step s = exec i { s with
      schedule := turns, rxQueue := queue, fBody := s.fBody.set s.fCnt.toNat b, fCnt := s.fCnt + 1, pstate := .seek }

/-- R72, R120, R204, R254, R280: what a step is in every case. The schedule, and the free turn once it is used up, are the
model's own (log entry 4). -/
def Obligations.StepGivesEachAgentItsTurn : Prop :=
  ∀ s : State,
    (s.powered = false → step s = exec .powerOn s) ∧
    (s.powered = true → ∀ turns : List Turn,
      (s.schedule = .tick :: turns → step s = exec .tick { s with schedule := turns }) ∧
      (∀ b, s.schedule = .host b :: turns → step s = .next { s with schedule := turns, rxQueue := s.rxQueue ++ [b] }) ∧
      (s.schedule = .main :: turns → s.mode = .run →
        (s.rxQueue = [] → step s = .next { s with schedule := turns }) ∧
        ∀ b queue, s.rxQueue = b :: queue → step s = exec (.rxByte b) { s with schedule := turns, rxQueue := queue }) ∧
      (s.schedule = .main :: turns → s.mode = .homing →
        step s = if s.homeCnt < homeBeats s.cfg s.homeSel then exec .homeBeat { s with schedule := turns }
          else exec .homeEnd { s with schedule := turns }) ∧
      (s.schedule = [] → step s = runTurn (Config.freeTurn s.freeIdx) { s with freeIdx := s.freeIdx + 1 }))

/-- The invariant of Sys2Proof.Machine.State.Inv holds of the initial condition of every configuration R7 and R8 admit, and of
`State.reset`, whose configuration is the model's choice (log entry 2). -/
def Obligations.InvariantHoldsInitially : Prop :=
  (∀ cfg : Config, cfg.valid = true → (State.initial cfg).Inv) ∧ State.reset.Inv

/-- R187, R29, R204, R207, R32, R37: every step keeps the invariant: the registers stay in their widths and the positions in
the full range, the bounds stay one of the two pairs, the parser and the homing sequencer stay in order. -/
def Obligations.StepKeepsTheInvariant : Prop :=
  ∀ s t : State, s.Inv → step s = .next t → t.Inv

/-- R250: from every state that meets the invariant a step answers a next state: the block never halts. -/
def Obligations.BlockNeverHalts : Prop :=
  ∀ s : State, s.Inv → ∃ t, step s = .next t
end

