-- ==== Sys2Proof/Laws/State.lean ====
section
/-! SUPPORT. One lemma per field per update of State (each true by rfl), so that no proof unfolds a record update. -/

namespace Sys2Proof.Machine

section emit

@[simp] theorem State.emit_cfg (s : State) (outs : List Output) : (s.emit outs).cfg = s.cfg := rfl
@[simp] theorem State.emit_powered (s : State) (outs : List Output) : (s.emit outs).powered = s.powered := rfl
@[simp] theorem State.emit_lanes (s : State) (outs : List Output) : (s.emit outs).lanes = s.lanes := rfl
@[simp] theorem State.emit_srLatch (s : State) (outs : List Output) : (s.emit outs).srLatch = s.srLatch := rfl
@[simp] theorem State.emit_pstate (s : State) (outs : List Output) : (s.emit outs).pstate = s.pstate := rfl
@[simp] theorem State.emit_fTarget (s : State) (outs : List Output) : (s.emit outs).fTarget = s.fTarget := rfl
@[simp] theorem State.emit_fSub (s : State) (outs : List Output) : (s.emit outs).fSub = s.fSub := rfl
@[simp] theorem State.emit_fLen (s : State) (outs : List Output) : (s.emit outs).fLen = s.fLen := rfl
@[simp] theorem State.emit_fCnt (s : State) (outs : List Output) : (s.emit outs).fCnt = s.fCnt := rfl
@[simp] theorem State.emit_fBody (s : State) (outs : List Output) : (s.emit outs).fBody = s.fBody := rfl
@[simp] theorem State.emit_mode (s : State) (outs : List Output) : (s.emit outs).mode = s.mode := rfl
@[simp] theorem State.emit_homeSel (s : State) (outs : List Output) : (s.emit outs).homeSel = s.homeSel := rfl
@[simp] theorem State.emit_homeCnt (s : State) (outs : List Output) : (s.emit outs).homeCnt = s.homeCnt := rfl
@[simp] theorem State.emit_rxQueue (s : State) (outs : List Output) : (s.emit outs).rxQueue = s.rxQueue := rfl
@[simp] theorem State.emit_trace (s : State) (outs : List Output) : (s.emit outs).trace = s.trace ++ outs := rfl
@[simp] theorem State.emit_schedule (s : State) (outs : List Output) : (s.emit outs).schedule = s.schedule := rfl
@[simp] theorem State.emit_freeIdx (s : State) (outs : List Output) : (s.emit outs).freeIdx = s.freeIdx := rfl

end emit

section modifyChan

@[simp] theorem State.modifyChan_cfg (s : State) (c : Nat) (f : Channel → Channel) : (s.modifyChan c f).cfg = s.cfg := rfl
@[simp] theorem State.modifyChan_powered (s : State) (c : Nat) (f : Channel → Channel) : (s.modifyChan c f).powered = s.powered := rfl
@[simp] theorem State.modifyChan_lanes (s : State) (c : Nat) (f : Channel → Channel) : (s.modifyChan c f).lanes = s.lanes.modify c fun l => { l with ch := f l.ch } := rfl
@[simp] theorem State.modifyChan_srLatch (s : State) (c : Nat) (f : Channel → Channel) : (s.modifyChan c f).srLatch = s.srLatch := rfl
@[simp] theorem State.modifyChan_pstate (s : State) (c : Nat) (f : Channel → Channel) : (s.modifyChan c f).pstate = s.pstate := rfl
@[simp] theorem State.modifyChan_fTarget (s : State) (c : Nat) (f : Channel → Channel) : (s.modifyChan c f).fTarget = s.fTarget := rfl
@[simp] theorem State.modifyChan_fSub (s : State) (c : Nat) (f : Channel → Channel) : (s.modifyChan c f).fSub = s.fSub := rfl
@[simp] theorem State.modifyChan_fLen (s : State) (c : Nat) (f : Channel → Channel) : (s.modifyChan c f).fLen = s.fLen := rfl
@[simp] theorem State.modifyChan_fCnt (s : State) (c : Nat) (f : Channel → Channel) : (s.modifyChan c f).fCnt = s.fCnt := rfl
@[simp] theorem State.modifyChan_fBody (s : State) (c : Nat) (f : Channel → Channel) : (s.modifyChan c f).fBody = s.fBody := rfl
@[simp] theorem State.modifyChan_mode (s : State) (c : Nat) (f : Channel → Channel) : (s.modifyChan c f).mode = s.mode := rfl
@[simp] theorem State.modifyChan_homeSel (s : State) (c : Nat) (f : Channel → Channel) : (s.modifyChan c f).homeSel = s.homeSel := rfl
@[simp] theorem State.modifyChan_homeCnt (s : State) (c : Nat) (f : Channel → Channel) : (s.modifyChan c f).homeCnt = s.homeCnt := rfl
@[simp] theorem State.modifyChan_rxQueue (s : State) (c : Nat) (f : Channel → Channel) : (s.modifyChan c f).rxQueue = s.rxQueue := rfl
@[simp] theorem State.modifyChan_trace (s : State) (c : Nat) (f : Channel → Channel) : (s.modifyChan c f).trace = s.trace := rfl
@[simp] theorem State.modifyChan_schedule (s : State) (c : Nat) (f : Channel → Channel) : (s.modifyChan c f).schedule = s.schedule := rfl
@[simp] theorem State.modifyChan_freeIdx (s : State) (c : Nat) (f : Channel → Channel) : (s.modifyChan c f).freeIdx = s.freeIdx := rfl

end modifyChan

section modifyAll

@[simp] theorem State.modifyAll_cfg (s : State) (f : Channel → Channel) : (s.modifyAll f).cfg = s.cfg := rfl
@[simp] theorem State.modifyAll_powered (s : State) (f : Channel → Channel) : (s.modifyAll f).powered = s.powered := rfl
@[simp] theorem State.modifyAll_lanes (s : State) (f : Channel → Channel) : (s.modifyAll f).lanes = s.lanes.map fun l => { l with ch := f l.ch } := rfl
@[simp] theorem State.modifyAll_srLatch (s : State) (f : Channel → Channel) : (s.modifyAll f).srLatch = s.srLatch := rfl
@[simp] theorem State.modifyAll_pstate (s : State) (f : Channel → Channel) : (s.modifyAll f).pstate = s.pstate := rfl
@[simp] theorem State.modifyAll_fTarget (s : State) (f : Channel → Channel) : (s.modifyAll f).fTarget = s.fTarget := rfl
@[simp] theorem State.modifyAll_fSub (s : State) (f : Channel → Channel) : (s.modifyAll f).fSub = s.fSub := rfl
@[simp] theorem State.modifyAll_fLen (s : State) (f : Channel → Channel) : (s.modifyAll f).fLen = s.fLen := rfl
@[simp] theorem State.modifyAll_fCnt (s : State) (f : Channel → Channel) : (s.modifyAll f).fCnt = s.fCnt := rfl
@[simp] theorem State.modifyAll_fBody (s : State) (f : Channel → Channel) : (s.modifyAll f).fBody = s.fBody := rfl
@[simp] theorem State.modifyAll_mode (s : State) (f : Channel → Channel) : (s.modifyAll f).mode = s.mode := rfl
@[simp] theorem State.modifyAll_homeSel (s : State) (f : Channel → Channel) : (s.modifyAll f).homeSel = s.homeSel := rfl
@[simp] theorem State.modifyAll_homeCnt (s : State) (f : Channel → Channel) : (s.modifyAll f).homeCnt = s.homeCnt := rfl
@[simp] theorem State.modifyAll_rxQueue (s : State) (f : Channel → Channel) : (s.modifyAll f).rxQueue = s.rxQueue := rfl
@[simp] theorem State.modifyAll_trace (s : State) (f : Channel → Channel) : (s.modifyAll f).trace = s.trace := rfl
@[simp] theorem State.modifyAll_schedule (s : State) (f : Channel → Channel) : (s.modifyAll f).schedule = s.schedule := rfl
@[simp] theorem State.modifyAll_freeIdx (s : State) (f : Channel → Channel) : (s.modifyAll f).freeIdx = s.freeIdx := rfl

end modifyAll

section drawFree

@[simp] theorem State.drawFree_cfg (s : State) : (s.drawFree).cfg = s.cfg := rfl
@[simp] theorem State.drawFree_powered (s : State) : (s.drawFree).powered = s.powered := rfl
@[simp] theorem State.drawFree_lanes (s : State) : (s.drawFree).lanes = s.lanes := rfl
@[simp] theorem State.drawFree_srLatch (s : State) : (s.drawFree).srLatch = s.srLatch := rfl
@[simp] theorem State.drawFree_pstate (s : State) : (s.drawFree).pstate = s.pstate := rfl
@[simp] theorem State.drawFree_fTarget (s : State) : (s.drawFree).fTarget = s.fTarget := rfl
@[simp] theorem State.drawFree_fSub (s : State) : (s.drawFree).fSub = s.fSub := rfl
@[simp] theorem State.drawFree_fLen (s : State) : (s.drawFree).fLen = s.fLen := rfl
@[simp] theorem State.drawFree_fCnt (s : State) : (s.drawFree).fCnt = s.fCnt := rfl
@[simp] theorem State.drawFree_fBody (s : State) : (s.drawFree).fBody = s.fBody := rfl
@[simp] theorem State.drawFree_mode (s : State) : (s.drawFree).mode = s.mode := rfl
@[simp] theorem State.drawFree_homeSel (s : State) : (s.drawFree).homeSel = s.homeSel := rfl
@[simp] theorem State.drawFree_homeCnt (s : State) : (s.drawFree).homeCnt = s.homeCnt := rfl
@[simp] theorem State.drawFree_rxQueue (s : State) : (s.drawFree).rxQueue = s.rxQueue := rfl
@[simp] theorem State.drawFree_trace (s : State) : (s.drawFree).trace = s.trace := rfl
@[simp] theorem State.drawFree_schedule (s : State) : (s.drawFree).schedule = s.schedule := rfl
@[simp] theorem State.drawFree_freeIdx (s : State) : (s.drawFree).freeIdx = s.freeIdx + 1 := rfl

end drawFree

section overLanes

@[simp] theorem State.overLanes_cfg (s : State) (f : Nat → Lane → LaneResult) : (s.overLanes f).cfg = s.cfg := rfl
@[simp] theorem State.overLanes_powered (s : State) (f : Nat → Lane → LaneResult) : (s.overLanes f).powered = s.powered := rfl
@[simp] theorem State.overLanes_lanes (s : State) (f : Nat → Lane → LaneResult) : (s.overLanes f).lanes = s.lanes.mapIdx fun c l => (f c l).lane := rfl
@[simp] theorem State.overLanes_srLatch (s : State) (f : Nat → Lane → LaneResult) : (s.overLanes f).srLatch = s.srLatch := rfl
@[simp] theorem State.overLanes_pstate (s : State) (f : Nat → Lane → LaneResult) : (s.overLanes f).pstate = s.pstate := rfl
@[simp] theorem State.overLanes_fTarget (s : State) (f : Nat → Lane → LaneResult) : (s.overLanes f).fTarget = s.fTarget := rfl
@[simp] theorem State.overLanes_fSub (s : State) (f : Nat → Lane → LaneResult) : (s.overLanes f).fSub = s.fSub := rfl
@[simp] theorem State.overLanes_fLen (s : State) (f : Nat → Lane → LaneResult) : (s.overLanes f).fLen = s.fLen := rfl
@[simp] theorem State.overLanes_fCnt (s : State) (f : Nat → Lane → LaneResult) : (s.overLanes f).fCnt = s.fCnt := rfl
@[simp] theorem State.overLanes_fBody (s : State) (f : Nat → Lane → LaneResult) : (s.overLanes f).fBody = s.fBody := rfl
@[simp] theorem State.overLanes_mode (s : State) (f : Nat → Lane → LaneResult) : (s.overLanes f).mode = s.mode := rfl
@[simp] theorem State.overLanes_homeSel (s : State) (f : Nat → Lane → LaneResult) : (s.overLanes f).homeSel = s.homeSel := rfl
@[simp] theorem State.overLanes_homeCnt (s : State) (f : Nat → Lane → LaneResult) : (s.overLanes f).homeCnt = s.homeCnt := rfl
@[simp] theorem State.overLanes_rxQueue (s : State) (f : Nat → Lane → LaneResult) : (s.overLanes f).rxQueue = s.rxQueue := rfl
@[simp] theorem State.overLanes_trace (s : State) (f : Nat → Lane → LaneResult) : (s.overLanes f).trace = s.trace ++ (s.lanes.mapIdx fun c l => (f c l).outs).flatten := rfl
@[simp] theorem State.overLanes_schedule (s : State) (f : Nat → Lane → LaneResult) : (s.overLanes f).schedule = s.schedule := rfl
@[simp] theorem State.overLanes_freeIdx (s : State) (f : Nat → Lane → LaneResult) : (s.overLanes f).freeIdx = s.freeIdx := rfl

end overLanes

section homeBegin

@[simp] theorem homeBegin_cfg (sel : List Nat) (s : State) : (homeBegin sel s).cfg = s.cfg := rfl
@[simp] theorem homeBegin_powered (sel : List Nat) (s : State) : (homeBegin sel s).powered = s.powered := rfl
@[simp] theorem homeBegin_lanes (sel : List Nat) (s : State) : (homeBegin sel s).lanes = s.lanes.mapIdx fun c l => (homeBeginLane s.cfg sel c l).lane := rfl
@[simp] theorem homeBegin_srLatch (sel : List Nat) (s : State) : (homeBegin sel s).srLatch = s.srLatch := rfl
@[simp] theorem homeBegin_pstate (sel : List Nat) (s : State) : (homeBegin sel s).pstate = s.pstate := rfl
@[simp] theorem homeBegin_fTarget (sel : List Nat) (s : State) : (homeBegin sel s).fTarget = s.fTarget := rfl
@[simp] theorem homeBegin_fSub (sel : List Nat) (s : State) : (homeBegin sel s).fSub = s.fSub := rfl
@[simp] theorem homeBegin_fLen (sel : List Nat) (s : State) : (homeBegin sel s).fLen = s.fLen := rfl
@[simp] theorem homeBegin_fCnt (sel : List Nat) (s : State) : (homeBegin sel s).fCnt = s.fCnt := rfl
@[simp] theorem homeBegin_fBody (sel : List Nat) (s : State) : (homeBegin sel s).fBody = s.fBody := rfl
@[simp] theorem homeBegin_mode (sel : List Nat) (s : State) : (homeBegin sel s).mode = .homing := rfl
@[simp] theorem homeBegin_homeSel (sel : List Nat) (s : State) : (homeBegin sel s).homeSel = sel := rfl
@[simp] theorem homeBegin_homeCnt (sel : List Nat) (s : State) : (homeBegin sel s).homeCnt = 0 := rfl
@[simp] theorem homeBegin_rxQueue (sel : List Nat) (s : State) : (homeBegin sel s).rxQueue = s.rxQueue := rfl
@[simp] theorem homeBegin_trace (sel : List Nat) (s : State) : (homeBegin sel s).trace = s.trace ++ (s.lanes.mapIdx fun c l => (homeBeginLane s.cfg sel c l).outs).flatten := rfl
@[simp] theorem homeBegin_schedule (sel : List Nat) (s : State) : (homeBegin sel s).schedule = s.schedule := rfl
@[simp] theorem homeBegin_freeIdx (sel : List Nat) (s : State) : (homeBegin sel s).freeIdx = s.freeIdx := rfl

end homeBegin

section homeEnd

@[simp] theorem homeEnd_cfg (s : State) : (homeEnd s).cfg = s.cfg := rfl
@[simp] theorem homeEnd_powered (s : State) : (homeEnd s).powered = s.powered := rfl
@[simp] theorem homeEnd_lanes (s : State) : (homeEnd s).lanes = s.lanes.mapIdx fun c l => (homeEndLane s.cfg s.homeSel c l).lane := rfl
@[simp] theorem homeEnd_srLatch (s : State) : (homeEnd s).srLatch = s.srLatch := rfl
@[simp] theorem homeEnd_pstate (s : State) : (homeEnd s).pstate = s.pstate := rfl
@[simp] theorem homeEnd_fTarget (s : State) : (homeEnd s).fTarget = s.fTarget := rfl
@[simp] theorem homeEnd_fSub (s : State) : (homeEnd s).fSub = s.fSub := rfl
@[simp] theorem homeEnd_fLen (s : State) : (homeEnd s).fLen = s.fLen := rfl
@[simp] theorem homeEnd_fCnt (s : State) : (homeEnd s).fCnt = s.fCnt := rfl
@[simp] theorem homeEnd_fBody (s : State) : (homeEnd s).fBody = s.fBody := rfl
@[simp] theorem homeEnd_mode (s : State) : (homeEnd s).mode = .run := rfl
@[simp] theorem homeEnd_homeSel (s : State) : (homeEnd s).homeSel = [] := rfl
@[simp] theorem homeEnd_homeCnt (s : State) : (homeEnd s).homeCnt = 0 := rfl
@[simp] theorem homeEnd_rxQueue (s : State) : (homeEnd s).rxQueue = s.rxQueue := rfl
@[simp] theorem homeEnd_trace (s : State) : (homeEnd s).trace = s.trace ++ (s.lanes.mapIdx fun c l => (homeEndLane s.cfg s.homeSel c l).outs).flatten := rfl
@[simp] theorem homeEnd_schedule (s : State) : (homeEnd s).schedule = s.schedule := rfl
@[simp] theorem homeEnd_freeIdx (s : State) : (homeEnd s).freeIdx = s.freeIdx := rfl

end homeEnd

section initial

@[simp] theorem State.initial_cfg (cfg : Config) : (State.initial cfg).cfg = cfg := rfl
@[simp] theorem State.initial_powered (cfg : Config) : (State.initial cfg).powered = false := rfl
@[simp] theorem State.initial_lanes (cfg : Config) : (State.initial cfg).lanes = initialLanes cfg := rfl
@[simp] theorem State.initial_srLatch (cfg : Config) : (State.initial cfg).srLatch = 0 := rfl
@[simp] theorem State.initial_pstate (cfg : Config) : (State.initial cfg).pstate = .seek := rfl
@[simp] theorem State.initial_fTarget (cfg : Config) : (State.initial cfg).fTarget = 0 := rfl
@[simp] theorem State.initial_fSub (cfg : Config) : (State.initial cfg).fSub = 0 := rfl
@[simp] theorem State.initial_fLen (cfg : Config) : (State.initial cfg).fLen = 0 := rfl
@[simp] theorem State.initial_fCnt (cfg : Config) : (State.initial cfg).fCnt = 0 := rfl
@[simp] theorem State.initial_mode (cfg : Config) : (State.initial cfg).mode = .run := rfl
@[simp] theorem State.initial_homeSel (cfg : Config) : (State.initial cfg).homeSel = [] := rfl
@[simp] theorem State.initial_homeCnt (cfg : Config) : (State.initial cfg).homeCnt = 0 := rfl
@[simp] theorem State.initial_rxQueue (cfg : Config) : (State.initial cfg).rxQueue = [] := rfl
@[simp] theorem State.initial_trace (cfg : Config) : (State.initial cfg).trace = [] := rfl
@[simp] theorem State.initial_schedule (cfg : Config) : (State.initial cfg).schedule = [] := rfl
@[simp] theorem State.initial_freeIdx (cfg : Config) : (State.initial cfg).freeIdx = 0 := rfl

@[simp] theorem State.initial_fBody_length (cfg : Config) : (State.initial cfg).fBody.length = 255 :=
  List.length_replicate

@[simp] theorem initialLanes_length (cfg : Config) : (initialLanes cfg).length = cfg.nch := by simp [initialLanes]

@[simp] theorem initialLanes_getElem? (cfg : Config) (c : Nat) :
    (initialLanes cfg)[c]? = if c < cfg.nch then some ⟨Channel.initial cfg c, 0⟩ else none := by
  simp only [initialLanes, List.getElem?_map]
  split <;> simp_all

@[simp] theorem initialLanes_getElem (cfg : Config) (c : Nat) (h : c < (initialLanes cfg).length) :
    (initialLanes cfg)[c] = ⟨Channel.initial cfg c, 0⟩ := by simp [initialLanes]

end initial

section powerOnRegisters

@[simp] theorem powerOnRegisters_cfg (s : State) : (powerOnRegisters s).cfg = s.cfg := rfl
@[simp] theorem powerOnRegisters_powered (s : State) : (powerOnRegisters s).powered = true := rfl
@[simp] theorem powerOnRegisters_lanes (s : State) : (powerOnRegisters s).lanes = initialLanes s.cfg := rfl
@[simp] theorem powerOnRegisters_pstate (s : State) : (powerOnRegisters s).pstate = .seek := rfl
@[simp] theorem powerOnRegisters_mode (s : State) : (powerOnRegisters s).mode = .run := rfl
@[simp] theorem powerOnRegisters_homeSel (s : State) : (powerOnRegisters s).homeSel = [] := rfl
@[simp] theorem powerOnRegisters_homeCnt (s : State) : (powerOnRegisters s).homeCnt = 0 := rfl
@[simp] theorem powerOnRegisters_rxQueue (s : State) : (powerOnRegisters s).rxQueue = [] := rfl
@[simp] theorem powerOnRegisters_trace (s : State) : (powerOnRegisters s).trace = [] := rfl
@[simp] theorem powerOnRegisters_schedule (s : State) : (powerOnRegisters s).schedule = s.schedule := rfl
@[simp] theorem powerOnRegisters_freeIdx (s : State) : (powerOnRegisters s).freeIdx = s.freeIdx + 1 := rfl

@[simp] theorem powerOnRegisters_fBody_length (s : State) : (powerOnRegisters s).fBody.length = 255 := by
  simp [powerOnRegisters]

end powerOnRegisters

section powerOnCommit

@[simp] theorem powerOnCommit_cfg (s : State) : (powerOnCommit s).cfg = s.cfg := by
  unfold powerOnCommit
  split <;> rfl

@[simp] theorem powerOnCommit_powered (s : State) : (powerOnCommit s).powered = s.powered := by
  unfold powerOnCommit
  split <;> rfl

@[simp] theorem powerOnCommit_lanes (s : State) : (powerOnCommit s).lanes = s.lanes := by
  unfold powerOnCommit
  split <;> rfl

@[simp] theorem powerOnCommit_pstate (s : State) : (powerOnCommit s).pstate = s.pstate := by
  unfold powerOnCommit
  split <;> rfl

@[simp] theorem powerOnCommit_fTarget (s : State) : (powerOnCommit s).fTarget = s.fTarget := by
  unfold powerOnCommit
  split <;> rfl

@[simp] theorem powerOnCommit_fSub (s : State) : (powerOnCommit s).fSub = s.fSub := by
  unfold powerOnCommit
  split <;> rfl

@[simp] theorem powerOnCommit_fLen (s : State) : (powerOnCommit s).fLen = s.fLen := by
  unfold powerOnCommit
  split <;> rfl

@[simp] theorem powerOnCommit_fCnt (s : State) : (powerOnCommit s).fCnt = s.fCnt := by
  unfold powerOnCommit
  split <;> rfl

@[simp] theorem powerOnCommit_fBody (s : State) : (powerOnCommit s).fBody = s.fBody := by
  unfold powerOnCommit
  split <;> rfl

@[simp] theorem powerOnCommit_mode (s : State) : (powerOnCommit s).mode = s.mode := by
  unfold powerOnCommit
  split <;> rfl

@[simp] theorem powerOnCommit_homeSel (s : State) : (powerOnCommit s).homeSel = s.homeSel := by
  unfold powerOnCommit
  split <;> rfl

@[simp] theorem powerOnCommit_homeCnt (s : State) : (powerOnCommit s).homeCnt = s.homeCnt := by
  unfold powerOnCommit
  split <;> rfl

@[simp] theorem powerOnCommit_rxQueue (s : State) : (powerOnCommit s).rxQueue = s.rxQueue := by
  unfold powerOnCommit
  split <;> rfl

@[simp] theorem powerOnCommit_schedule (s : State) : (powerOnCommit s).schedule = s.schedule := by
  unfold powerOnCommit
  split <;> rfl

@[simp] theorem powerOnCommit_freeIdx (s : State) : (powerOnCommit s).freeIdx = s.freeIdx := by
  unfold powerOnCommit
  split <;> rfl

@[simp] theorem powerOnCommit_srLatch (s : State) : (powerOnCommit s).srLatch = 0 := by
  unfold powerOnCommit
  split <;> rfl

end powerOnCommit

section commitBatch

@[simp] theorem commitBatch_cfg (s : State) : (commitBatch s).cfg = s.cfg := by
  unfold commitBatch
  split <;> rfl

@[simp] theorem State.overLanesThenCommit_cfg (s : State) (f : Nat → Lane → LaneResult) :
    (s.overLanesThenCommit f).cfg = (s.overLanes f).cfg := by
  unfold State.overLanesThenCommit
  split <;> simp

@[simp] theorem commitBatch_powered (s : State) : (commitBatch s).powered = s.powered := by
  unfold commitBatch
  split <;> rfl

@[simp] theorem State.overLanesThenCommit_powered (s : State) (f : Nat → Lane → LaneResult) :
    (s.overLanesThenCommit f).powered = (s.overLanes f).powered := by
  unfold State.overLanesThenCommit
  split <;> simp

@[simp] theorem commitBatch_lanes (s : State) : (commitBatch s).lanes = s.lanes := by
  unfold commitBatch
  split <;> rfl

@[simp] theorem State.overLanesThenCommit_lanes (s : State) (f : Nat → Lane → LaneResult) :
    (s.overLanesThenCommit f).lanes = (s.overLanes f).lanes := by
  unfold State.overLanesThenCommit
  split <;> simp

@[simp] theorem commitBatch_pstate (s : State) : (commitBatch s).pstate = s.pstate := by
  unfold commitBatch
  split <;> rfl

@[simp] theorem State.overLanesThenCommit_pstate (s : State) (f : Nat → Lane → LaneResult) :
    (s.overLanesThenCommit f).pstate = (s.overLanes f).pstate := by
  unfold State.overLanesThenCommit
  split <;> simp

@[simp] theorem commitBatch_fTarget (s : State) : (commitBatch s).fTarget = s.fTarget := by
  unfold commitBatch
  split <;> rfl

@[simp] theorem State.overLanesThenCommit_fTarget (s : State) (f : Nat → Lane → LaneResult) :
    (s.overLanesThenCommit f).fTarget = (s.overLanes f).fTarget := by
  unfold State.overLanesThenCommit
  split <;> simp

@[simp] theorem commitBatch_fSub (s : State) : (commitBatch s).fSub = s.fSub := by
  unfold commitBatch
  split <;> rfl

@[simp] theorem State.overLanesThenCommit_fSub (s : State) (f : Nat → Lane → LaneResult) :
    (s.overLanesThenCommit f).fSub = (s.overLanes f).fSub := by
  unfold State.overLanesThenCommit
  split <;> simp

@[simp] theorem commitBatch_fLen (s : State) : (commitBatch s).fLen = s.fLen := by
  unfold commitBatch
  split <;> rfl

@[simp] theorem State.overLanesThenCommit_fLen (s : State) (f : Nat → Lane → LaneResult) :
    (s.overLanesThenCommit f).fLen = (s.overLanes f).fLen := by
  unfold State.overLanesThenCommit
  split <;> simp

@[simp] theorem commitBatch_fCnt (s : State) : (commitBatch s).fCnt = s.fCnt := by
  unfold commitBatch
  split <;> rfl

@[simp] theorem State.overLanesThenCommit_fCnt (s : State) (f : Nat → Lane → LaneResult) :
    (s.overLanesThenCommit f).fCnt = (s.overLanes f).fCnt := by
  unfold State.overLanesThenCommit
  split <;> simp

@[simp] theorem commitBatch_fBody (s : State) : (commitBatch s).fBody = s.fBody := by
  unfold commitBatch
  split <;> rfl

@[simp] theorem State.overLanesThenCommit_fBody (s : State) (f : Nat → Lane → LaneResult) :
    (s.overLanesThenCommit f).fBody = (s.overLanes f).fBody := by
  unfold State.overLanesThenCommit
  split <;> simp

@[simp] theorem commitBatch_mode (s : State) : (commitBatch s).mode = s.mode := by
  unfold commitBatch
  split <;> rfl

@[simp] theorem State.overLanesThenCommit_mode (s : State) (f : Nat → Lane → LaneResult) :
    (s.overLanesThenCommit f).mode = (s.overLanes f).mode := by
  unfold State.overLanesThenCommit
  split <;> simp

@[simp] theorem commitBatch_homeSel (s : State) : (commitBatch s).homeSel = s.homeSel := by
  unfold commitBatch
  split <;> rfl

@[simp] theorem State.overLanesThenCommit_homeSel (s : State) (f : Nat → Lane → LaneResult) :
    (s.overLanesThenCommit f).homeSel = (s.overLanes f).homeSel := by
  unfold State.overLanesThenCommit
  split <;> simp

@[simp] theorem commitBatch_homeCnt (s : State) : (commitBatch s).homeCnt = s.homeCnt := by
  unfold commitBatch
  split <;> rfl

@[simp] theorem State.overLanesThenCommit_homeCnt (s : State) (f : Nat → Lane → LaneResult) :
    (s.overLanesThenCommit f).homeCnt = (s.overLanes f).homeCnt := by
  unfold State.overLanesThenCommit
  split <;> simp

@[simp] theorem commitBatch_rxQueue (s : State) : (commitBatch s).rxQueue = s.rxQueue := by
  unfold commitBatch
  split <;> rfl

@[simp] theorem State.overLanesThenCommit_rxQueue (s : State) (f : Nat → Lane → LaneResult) :
    (s.overLanesThenCommit f).rxQueue = (s.overLanes f).rxQueue := by
  unfold State.overLanesThenCommit
  split <;> simp

@[simp] theorem commitBatch_schedule (s : State) : (commitBatch s).schedule = s.schedule := by
  unfold commitBatch
  split <;> rfl

@[simp] theorem State.overLanesThenCommit_schedule (s : State) (f : Nat → Lane → LaneResult) :
    (s.overLanesThenCommit f).schedule = (s.overLanes f).schedule := by
  unfold State.overLanesThenCommit
  split <;> simp

@[simp] theorem commitBatch_freeIdx (s : State) : (commitBatch s).freeIdx = s.freeIdx := by
  unfold commitBatch
  split <;> rfl

@[simp] theorem State.overLanesThenCommit_freeIdx (s : State) (f : Nat → Lane → LaneResult) :
    (s.overLanesThenCommit f).freeIdx = (s.overLanes f).freeIdx := by
  unfold State.overLanesThenCommit
  split <;> simp

end commitBatch

end Sys2Proof.Machine
end

