-- ==== Sys2Proof/Laws/Bend.lean ====
section
/-! SUPPORT. What the search behind `BendScale` finds (R168 B4). -/

namespace Sys2Proof.Machine

/-- For a test that holds up to some number and fails beyond it, the search returns the largest number below
`acc + 2^bits` that passes, from any passing start `acc`. -/
theorem searchDown_spec (test : Nat → Bool) (mono : ∀ a b, a ≤ b → test b = true → test a = true) (bits : Nat) :
    ∀ acc, test acc = true →
      acc ≤ searchDown test bits acc ∧ searchDown test bits acc < acc + 2 ^ bits ∧
      test (searchDown test bits acc) = true ∧
      (searchDown test bits acc + 1 < acc + 2 ^ bits → test (searchDown test bits acc + 1) = false) := by
  induction bits with
  | zero => intro acc h; simp [searchDown, h]
  | succ n ih =>
    intro acc h
    have hp : 2 ^ (n + 1) = 2 ^ n + 2 ^ n := by ring
    have hpos : 0 < 2 ^ n := Nat.two_pow_pos n
    simp only [searchDown]
    by_cases ht : test (acc + 2 ^ n) = true
    · simp only [ht, if_true]
      obtain ⟨h1, h2, h3, h4⟩ := ih (acc + 2 ^ n) ht
      exact ⟨by omega, by omega, h3, fun hlt => h4 (by omega)⟩
    · simp only [ht]
      obtain ⟨h1, h2, h3, h4⟩ := ih acc h
      refine ⟨h1, by simp; omega, h3, fun hlt => ?_⟩
      by_cases hlt' : searchDown test n acc + 1 < acc + 2 ^ n
      · exact h4 hlt'
      · by_contra hc
        exact ht (mono _ (searchDown test n acc + 1) (by simp at *; omega) (by simpa using hc))

/-- The comparison of `k` with the nominal period is monotone in `k` (R167). -/
theorem atMostNominal_mono (e : Rat) (p a b : Nat) (hab : a ≤ b) (h : atMostNominal e p b = true) :
    atMostNominal e p a = true := by
  simp only [atMostNominal, decide_eq_true_eq] at *
  exact le_trans (Nat.mul_le_mul_right _ (Nat.pow_le_pow_left hab _)) h

/-- The bits below `PERIOD_W` are all that the floor of a nominal period has. -/
theorem bendFloor_lt (cfg : Config) (p : Nat) (d : Int) : bendFloor cfg p d < 2 ^ cfg.periodW := by
  have h0 : atMostNominal (bendExponent cfg.bendOctaves d) p 0 = true := by
    simp [atMostNominal, Nat.zero_pow (Rat.den_pos _)]
  have := (searchDown_spec _ (atMostNominal_mono _ p) cfg.periodW 0 h0).2.1
  simpa [bendFloor] using this

/-- A drawn period has `PERIOD_W` bits (R170). -/
theorem drawnPeriod_lt (cfg : Config) (i : Nat) : drawnPeriod cfg i < 2 ^ cfg.periodW :=
  Nat.mod_lt _ (Nat.two_pow_pos _)

end Sys2Proof.Machine
end

