-- ==== Sys2Proof/Laws/Config.lean ====
section
/-! SUPPORT. The constraints of R8 and the ranges of R7, one lemma a constraint, read off `Config.valid`. -/

namespace Sys2Proof

theorem Config.valid_iff (cfg : Config) :
    cfg.valid = true ↔ cfg.AddressesOk ∧ cfg.TablesOk ∧ (∀ c ∈ List.range cfg.nch, cfg.BoundsOk c) ∧
      0 < cfg.bendOctaves ∧ cfg.systemOpcodes.Nodup ∧ cfg.deviceOpcodes.Nodup ∧
      ∀ c ∈ List.range cfg.nch, cfg.HomingOk c := by
  simp only [Config.valid, decide_eq_true_eq]

variable {cfg : Config}

theorem Config.device_ne_system (h : cfg.valid = true) : cfg.deviceAddress ≠ systemAddress :=
  (cfg.valid_iff.mp h).1.1

theorem Config.one_le_minSub (h : cfg.valid = true) : 1 ≤ cfg.minSub.toNat := (cfg.valid_iff.mp h).1.2.1

theorem Config.minSub_le_maxSub (h : cfg.valid = true) : cfg.minSub.toNat ≤ cfg.maxSub.toNat :=
  (cfg.valid_iff.mp h).1.2.2

theorem Config.one_le_periodW (h : cfg.valid = true) : 1 ≤ cfg.periodW := (cfg.valid_iff.mp h).2.1.1

theorem Config.freqRom_length (h : cfg.valid = true) : cfg.freqRom.length = 128 := (cfg.valid_iff.mp h).2.1.2.2.1

/-- Every ROM entry, and the 0 read outside it, fits `PERIOD_W` bits. -/
theorem Config.freqRom_lt (h : cfg.valid = true) (n : Nat) : cfg.freqRom.getD n 0 < 2 ^ cfg.periodW := by
  rw [List.getD_eq_getElem?_getD]
  by_cases hn : n < cfg.freqRom.length
  · rw [List.getElem?_eq_getElem hn]
    exact (cfg.valid_iff.mp h).2.1.2.2.2.1 _ (List.getElem_mem hn)
  · rw [List.getElem?_eq_none (by omega)]
    exact Nat.two_pow_pos _

theorem Config.srWidth_ge (h : cfg.valid = true) (hb : cfg.backend = .shiftRegister) : cfg.nch ≤ cfg.srWidth :=
  (cfg.valid_iff.mp h).2.1.2.2.2.2.2.2.2.2.1 hb

theorem Config.stepTable_pos (h : cfg.valid = true) (hb : cfg.backend = .hBridge) : 0 < cfg.stepTable.length :=
  (cfg.valid_iff.mp h).2.1.2.2.2.2.2.2.2.2.2.1 hb

theorem Config.boundsOk (h : cfg.valid = true) {c : Nat} (hc : c < cfg.nch) : cfg.BoundsOk c :=
  (cfg.valid_iff.mp h).2.2.1 c (List.mem_range.mpr hc)

theorem Config.bendOctaves_pos (h : cfg.valid = true) : 0 < cfg.bendOctaves := (cfg.valid_iff.mp h).2.2.2.1

theorem Config.systemOpcodes_nodup (h : cfg.valid = true) : cfg.systemOpcodes.Nodup := (cfg.valid_iff.mp h).2.2.2.2.1

theorem Config.deviceOpcodes_nodup (h : cfg.valid = true) : cfg.deviceOpcodes.Nodup := (cfg.valid_iff.mp h).2.2.2.2.2.1

theorem Config.homingOk (h : cfg.valid = true) {c : Nat} (hc : c < cfg.nch) : cfg.HomingOk c :=
  (cfg.valid_iff.mp h).2.2.2.2.2.2 c (List.mem_range.mpr hc)

/-- "from any position, that many reverse transitions reach the stop" (R205). -/
theorem Config.homing_reaches_stop (h : cfg.valid = true) (ht : cfg.hasTravel = true) {c : Nat} (hc : c < cfg.nch)
    {position : Int} (hp : position ≤ cfg.fullMaxAt c) :
    position - (cfg.homeTransitions.getD c 0 : Nat) ≤ cfg.fullMin c := by
  have := Config.homingOk h hc ht
  omega

/-- There is at least one channel (R7). -/
theorem Config.nch_pos (cfg : Config) : 0 < cfg.nch := Nat.succ_pos _

/-- All channels are a homing set (R201). -/
theorem selectionOk_range (cfg : Config) : selectionOk cfg (List.range cfg.nch) = true := by
  have := cfg.nch_pos
  simp [selectionOk, List.pairwise_lt_range]
  omega

/-- One channel is a homing set (R200). -/
theorem selectionOk_singleton {c : Nat} (h : c < cfg.nch) : selectionOk cfg [c] = true := by
  simp [selectionOk, h]

/-- An accepted sub-address that is no broadcast names a channel (R62, R148). -/
theorem channelOfSub_lt {sub : Byte} (hs : subAccepted cfg sub = true) (h0 : sub ≠ 0) :
    channelOfSub cfg sub < cfg.nch := by
  simp only [subAccepted, Bool.or_eq_true, beq_iff_eq, h0, false_or, Bool.and_eq_true, decide_eq_true_eq] at hs
  simp only [channelOfSub, Config.nch]
  omega

/-- The sub-address of the channel of an accepted sub-address is that sub-address (R20). -/
theorem subOfChannel_channelOfSub {sub : Byte} (hs : subAccepted cfg sub = true) (h0 : sub ≠ 0) :
    subOfChannel cfg (channelOfSub cfg sub) = sub := by
  simp only [subAccepted, Bool.or_eq_true, beq_iff_eq, h0, false_or, Bool.and_eq_true, decide_eq_true_eq] at hs
  simp only [subOfChannel, channelOfSub]
  rw [Nat.add_sub_cancel' hs.1]
  simp

end Sys2Proof
end

