-- ==== Sys2Proof/Laws/Dispatch.lean ====
section
/-! SUPPORT. The dispatcher of the ingress and `exec` agree on every command, and what a Message can decode to (R140, R152). -/

namespace Sys2Proof

/-- The operations a frame can carry (R108). -/
def Instr.isCommand : Instr → Bool
  | .rxByte _ => false
  | .tick => false
  | .homeBegin _ => false
  | .homeBeat => false
  | .homeEnd => false
  | .powerOn => false
  | .sysPing _ _ => true
  | .sysPong _ _ => true
  | .sysReset _ _ => true
  | .sysStart _ _ => true
  | .sysStop _ _ => true
  | .devReset _ _ => true
  | .devNoteOff _ _ => true
  | .devNoteOn _ _ => true
  | .devBendPitch _ _ => true
  | .devSetMovement _ _ => true
  | .devSetTargetColor _ _ => true
  | .sysFallback _ _ _ => true
  | .devFallback _ _ _ => true
  | .broadcast _ _ => true
  | .empty _ _ => true

theorem decodeSystem_isCommand (cfg : Config) (sub op : Byte) (payload : List Byte) :
    (decodeSystem cfg sub op payload).isCommand = true := by
  unfold decodeSystem
  repeat' split
  all_goals rfl

theorem decodeDevice_isCommand (cfg : Config) (c : Nat) (op : Byte) (payload : List Byte) :
    (decodeDevice cfg c op payload).isCommand = true := by
  unfold decodeDevice
  repeat' split
  all_goals rfl

/-- What a Message can decode to, case by case (R140). -/
theorem decodeMessage_cases {cfg : Config} {m : Message} {i : Instr} (h : decodeMessage cfg m = .ok i) :
    targetAccepted cfg m.target = true ∧ subAccepted cfg m.sub = true ∧
    ((m.command = none ∧ i = .empty m.target m.sub) ∨
      ∃ op, m.command = some op ∧
        ((m.target = systemAddress ∧ i = decodeSystem cfg m.sub op m.payload) ∨
         (m.target ≠ systemAddress ∧ m.sub = 0 ∧ i = .broadcast op m.payload) ∨
         (m.target ≠ systemAddress ∧ m.sub ≠ 0 ∧ i = decodeDevice cfg (channelOfSub cfg m.sub) op m.payload))) := by
  simp only [decodeMessage] at h
  split at h
  · cases h
  · rename_i ht
    split at h
    · cases h
    · rename_i hs
      refine ⟨by simpa using ht, by simpa using hs, ?_⟩
      split at h
      · rename_i hc
        cases h
        exact .inl ⟨hc, rfl⟩
      · rename_i op hc
        refine .inr ⟨op, hc, ?_⟩
        split at h
        · cases h
          exact .inl ⟨‹_›, rfl⟩
        · split at h
          · cases h
            exact .inr (.inl ⟨‹_›, ‹_›, rfl⟩)
          · cases h
            exact .inr (.inr ⟨‹_›, ‹_›, rfl⟩)

/-- A Message to the system address decodes in the system space (R96, R140). -/
theorem decodeMessage_system {cfg : Config} {sub : Byte} (hs : subAccepted cfg sub = true) (op : Byte)
    (payload : List Byte) :
    decodeMessage cfg (Machine.systemMessage sub op payload) = .ok (decodeSystem cfg sub op payload) := by
  simp [decodeMessage, Machine.systemMessage, targetAccepted, hs]

/-- The sub-address of a channel is accepted, is no broadcast and names that channel (R20, R62). -/
theorem subOfChannel_ok {cfg : Config} (hv : cfg.valid = true) {c : Nat} (hc : c < cfg.nch) :
    subAccepted cfg (subOfChannel cfg c) = true ∧ subOfChannel cfg c ≠ 0 ∧ channelOfSub cfg (subOfChannel cfg c) = c := by
  have h1 := Config.one_le_minSub hv
  have h2 := Config.minSub_le_maxSub hv
  have h3 := cfg.maxSub.isLt
  simp only [Config.nch] at hc
  have ht : (subOfChannel cfg c).toNat = cfg.minSub.toNat + c := by
    rw [subOfChannel, BitVec.toNat_ofNat, Nat.mod_eq_of_lt (by omega)]
  refine ⟨?_, ?_, ?_⟩
  · simp only [subAccepted, ht, Bool.or_eq_true, Bool.and_eq_true, decide_eq_true_eq]
    exact .inr ⟨by omega, by omega⟩
  · intro h
    rw [h] at ht
    simp at ht
    omega
  · rw [channelOfSub, ht]
    omega

/-- A Message to a channel of this unit decodes in the device space (R96, R140). -/
theorem decodeMessage_device {cfg : Config} (hv : cfg.valid = true) {c : Nat} (hc : c < cfg.nch) (op : Byte)
    (payload : List Byte) :
    decodeMessage cfg (Machine.deviceMessage cfg c op payload) = .ok (decodeDevice cfg c op payload) := by
  obtain ⟨hs, h0, hch⟩ := subOfChannel_ok hv hc
  have := Config.device_ne_system hv
  simp [decodeMessage, Machine.deviceMessage, targetAccepted, hs, hch, this]
  exact fun h => absurd h h0

/-- No Message decodes to an event (R108). -/
theorem decodeMessage_isCommand {cfg : Config} {m : Message} {i : Instr} (h : decodeMessage cfg m = .ok i) :
    i.isCommand = true := by
  obtain ⟨-, -, ⟨-, rfl⟩ | ⟨op, -, ⟨-, rfl⟩ | ⟨-, -, rfl⟩ | ⟨-, -, rfl⟩⟩⟩ := decodeMessage_cases h
  · rfl
  · exact decodeSystem_isCommand ..
  · rfl
  · exact decodeDevice_isCommand ..

namespace Machine

/-- The ingress runs a command by the very meaning `exec` gives it. -/
theorem runCommand_eq_exec {i : Instr} (h : i.isCommand = true) (s : State) : runCommand i s = exec i s := by
  cases i <;> first | rfl | cases h

/-- The hand-off of a Message that decodes is `exec` of the operation it decodes to (R126, R140). -/
theorem handOff_eq_exec {m : Message} {s : State} {i : Instr} (h : decodeMessage s.cfg m = .ok i) :
    handOff m s = exec i s := by
  rw [handOff, h]
  exact runCommand_eq_exec (decodeMessage_isCommand h) s

end Machine

end Sys2Proof
end

