-- ==== Sys2Proof/Laws/Lanes.lean ====
section
/-! SUPPORT. What the operations over the register files can do, lane by lane (R147, R188), and what the backend leaves
alone (R222, R237). -/

namespace Sys2Proof.Machine

/-- An operation over all lanes gives lane `c` what its work on that lane alone gives (R188). -/
theorem State.overLanes_getElem? (s : State) (f : Nat → Lane → LaneResult) (c : Nat) :
    (s.overLanes f).lanes[c]? = s.lanes[c]?.map fun l => (f c l).lane := by
  simp [List.getElem?_mapIdx]

@[simp] theorem State.overLanes_length (s : State) (f : Nat → Lane → LaneResult) :
    (s.overLanes f).lanes.length = s.lanes.length := by simp

@[simp] theorem State.modifyChan_length (s : State) (c : Nat) (f : Channel → Channel) :
    (s.modifyChan c f).lanes.length = s.lanes.length := by simp

/-- A device command's write reaches the lane of its channel and no other (R147). -/
theorem State.modifyChan_getElem? (s : State) (c k : Nat) (f : Channel → Channel) :
    (s.modifyChan c f).lanes[k]? =
      s.lanes[k]?.map fun l => if c = k then { l with ch := f l.ch } else l := by
  simp [List.getElem?_modify]

/-- Whether some lane called `apply`, said of the lanes (R180, R205). -/
theorem State.anyActed_iff (s : State) (f : Nat → Lane → LaneResult) :
    s.anyActed f = true ↔ ∃ c l, s.lanes[c]? = some l ∧ (f c l).acted = true := by
  simp only [State.anyActed, List.any_eq_true, id_eq, exists_eq_right, List.mem_mapIdx]
  constructor
  · rintro ⟨c, h, hf⟩
    exact ⟨c, s.lanes[c], by simp, hf⟩
  · rintro ⟨c, l, h, hf⟩
    obtain ⟨hc, rfl⟩ := List.getElem?_eq_some_iff.mp h
    exact ⟨c, hc, hf⟩

/-- The record of channel `c` is the record of its lane. -/
theorem State.chan_of_getElem? {s : State} {c : Nat} {l : Lane} (h : s.lanes[c]? = some l) : s.chan c = l.ch := by
  simp [State.chan, List.getD_eq_getElem?_getD, h]

@[simp] theorem LaneResult.idle_lane (l : Lane) : (LaneResult.idle l).lane = l := rfl
@[simp] theorem LaneResult.idle_outs (l : Lane) : (LaneResult.idle l).outs = [] := rfl
@[simp] theorem LaneResult.idle_acted (l : Lane) : (LaneResult.idle l).acted = false := rfl

/-- "No variant writes any channel register" (R222). -/
@[simp] theorem applyLane_ch (cfg : Config) (c : Nat) (level : Dir) (l : Lane) :
    (applyLane cfg c level l).lane.ch = l.ch := by
  unfold applyLane
  split <;> rfl

@[simp] theorem applyLane_acted (cfg : Config) (c : Nat) (level : Dir) (l : Lane) :
    (applyLane cfg c level l).acted = true := by
  unfold applyLane
  split <;> rfl

/-- `STEP(c)` on the record, whatever the backend (R184, R237). -/
@[simp] theorem stepLane_ch (cfg : Config) (c : Nat) (l : Lane) : (stepLane cfg c l).lane.ch = stepChannel l.ch := by
  simp [stepLane]

/-- TICK on one record (R180 to R184). -/
theorem tickLane_ch (cfg : Config) (c : Nat) (l : Lane) :
    (tickLane cfg c l).lane.ch =
      if l.ch.curPeriod = 0 then l.ch
      else if l.ch.elapsed + 1 < l.ch.curPeriod then { l.ch with elapsed := l.ch.elapsed + 1 }
      else stepChannel { l.ch with elapsed := 0 } := by
  unfold tickLane
  split
  · rfl
  · split <;> simp

/-- TICK calls `apply` on exactly the lanes that step (R180). -/
theorem tickLane_acted (cfg : Config) (c : Nat) (l : Lane) :
    (tickLane cfg c l).acted = true ↔ l.ch.curPeriod ≠ 0 ∧ l.ch.curPeriod ≤ l.ch.elapsed + 1 := by
  unfold tickLane
  split
  · simp_all
  · split <;> simp_all [stepLane]

/-- HOME_BEGIN on one record (R203). -/
theorem homeBeginLane_ch (cfg : Config) (sel : List Nat) (c : Nat) (l : Lane) :
    (homeBeginLane cfg sel c l).lane.ch =
      if c ∈ sel then { l.ch with curPeriod := 0, origPeriod := 0, dir := .reverse } else l.ch := by
  unfold homeBeginLane
  split <;> simp [silence]

/-- HOME_BEAT on one record (R205). -/
theorem homeBeatLane_ch (cfg : Config) (sel : List Nat) (cnt c : Nat) (l : Lane) :
    (homeBeatLane cfg sel cnt c l).lane.ch =
      if c ∈ sel ∧ cnt ≤ cfg.homeTransitions.getD c 0 then { l.ch with out := !l.ch.out } else l.ch := by
  unfold homeBeatLane
  split <;> simp [toggleOut]

/-- HOME_END on one record (R206). -/
theorem homeEndLane_ch (cfg : Config) (sel : List Nat) (c : Nat) (l : Lane) :
    (homeEndLane cfg sel c l).lane.ch =
      if c ∈ sel then { l.ch with position := 0, elapsed := 0, dir := .forward } else l.ch := by
  unfold homeEndLane
  split <;> rfl

/-- What `commit_batch()` does to the latch and the trace: something in the shift-register backend only (R229). -/
theorem commitBatch_cases (s : State) :
    (s.cfg.backend = .shiftRegister ∧ (commitBatch s).srLatch = packOuts s.lanes ∧
      (commitBatch s).trace = s.trace ++ [.srCommit (packOuts s.lanes)]) ∨
    (s.cfg.backend ≠ .shiftRegister ∧ commitBatch s = s) := by
  unfold commitBatch
  split <;> simp_all

/-- "`word[i] = 0` for `NCH <= i`": the packed word has one bit a lane (R228). -/
theorem packOuts_lt (lanes : List Lane) : packOuts lanes < 2 ^ lanes.length := by
  induction lanes with
  | nil => simp [packOuts]
  | cons l rest ih =>
    have := Bool.toNat_lt l.ch.out
    simp only [packOuts, List.length_cons, pow_succ]
    omega

/-- A device command answers a next state exactly for a channel that is there (R148). -/
theorem onChannel_eq_next_iff (c : Nat) (s t u : State) :
    onChannel c s t = .next u ↔ c < s.cfg.nch ∧ t = u := by
  unfold onChannel
  split <;> simp_all

end Sys2Proof.Machine
end

