-- ==== Sys2Proof/Laws/Effects.lean ====
section
/-! SUPPORT. Everything an operation and a step can do, said once: the inversion lemmas the invariant proofs cite. -/

namespace Sys2Proof.Machine

/-- Everything a command can do to a state (R129, R141 to R151, R160 to R170, R200 to R203). -/
inductive CommandEffect (s : State) : State → Prop where
  /-- no-op -/
  | none : CommandEffect s s
  /-- the liveness reply (R129) -/
  | reply : CommandEffect s (s.emit [.txBytes (livenessReply s.cfg)])
  /-- sequence STOP (R145) -/
  | stop : CommandEffect s (s.modifyAll silence)
  /-- the start of a reset (R200, R201, R203) -/
  | home (sel : List Nat) (ok : selectionOk s.cfg sel = true) : CommandEffect s (homeBegin sel s)
  /-- a note (R160) -/
  | note (c n : Nat) (hc : c < s.cfg.nch) (hp : romRead s.cfg n ≠ 0) :
      CommandEffect s (s.modifyChan c fun ch => { ch with curPeriod := romRead s.cfg n, origPeriod := romRead s.cfg n })
  /-- a note-off (R164) -/
  | off (c : Nat) (hc : c < s.cfg.nch) : CommandEffect s (s.modifyChan c silence)
  /-- a bend with a result (R166) -/
  | bend (c : Nat) (d : Int) (hc : c < s.cfg.nch) (hd : bendDefined s.cfg (s.chan c).origPeriod d = true) :
      CommandEffect s (s.modifyChan c fun ch => { ch with curPeriod := bendScale s.cfg ch.origPeriod d })
  /-- a bend without one (R170) -/
  | draw (c : Nat) (hc : c < s.cfg.nch) :
      CommandEffect s (s.drawFree.modifyChan c fun ch => { ch with curPeriod := drawnPeriod s.cfg s.freeIdx })
  /-- the full range (R151) -/
  | full (c : Nat) (hc : c < s.cfg.nch) :
      CommandEffect s (s.modifyChan c fun ch => { ch with minPos := s.cfg.fullMin c, maxPos := s.cfg.fullMaxAt c })
  /-- the constrained range (R151) -/
  | constrained (c : Nat) (hc : c < s.cfg.nch) :
      CommandEffect s (s.modifyChan c fun ch => { ch with minPos := s.cfg.constrMinAt c, maxPos := s.cfg.constrMaxAt c })

/-- What a command answers is one of its effects. -/
theorem exec_command_effect {i : Instr} {s t : State} (hi : i.isCommand = true) (h : exec i s = .next t) :
    CommandEffect s t := by
  cases i with
  | rxByte | tick | homeBegin | homeBeat | homeEnd | powerOn => cases hi
  | sysPing => cases h; exact .reply
  | sysPong => cases h; exact .none
  | sysStart => cases h; exact .none
  | sysFallback => cases h; exact .none
  | empty => cases h; exact .none
  | sysReset => cases h; exact .home _ (selectionOk_range _)
  | sysStop =>
    simp only [exec, execSysStop] at h
    split at h <;> cases h
    · exact .stop
    · exact .none
  | broadcast =>
    simp only [exec, execBroadcast] at h
    split at h
    · cases h; exact .home _ (selectionOk_range _)
    · split at h <;> cases h
      · exact .home _ (selectionOk_range _)
      · exact .none
  | devReset c =>
    obtain ⟨hc, rfl⟩ := (onChannel_eq_next_iff ..).mp h
    exact .home _ (selectionOk_singleton hc)
  | devNoteOff c =>
    obtain ⟨hc, rfl⟩ := (onChannel_eq_next_iff ..).mp h
    exact .off c hc
  | devSetTargetColor c =>
    obtain ⟨hc, rfl⟩ := (onChannel_eq_next_iff ..).mp h
    exact .none
  | devFallback c =>
    obtain ⟨hc, rfl⟩ := (onChannel_eq_next_iff ..).mp h
    exact .none
  | devNoteOn c payload =>
    simp only [exec, execDevNoteOn] at h
    split at h
    · obtain ⟨hc, rfl⟩ := (onChannel_eq_next_iff ..).mp h
      exact .none
    · split at h <;> obtain ⟨hc, rfl⟩ := (onChannel_eq_next_iff ..).mp h
      · exact .none
      · exact .note c _ hc ‹_›
  | devBendPitch c payload =>
    simp only [exec, execDevBendPitch] at h
    split at h <;> obtain ⟨hc, rfl⟩ := (onChannel_eq_next_iff ..).mp h
    · exact .none
    · unfold bendChannel
      split
      · exact .bend c _ hc ‹_›
      · exact .draw c hc
  | devSetMovement c payload =>
    simp only [exec, execDevSetMovement] at h
    split at h <;> obtain ⟨hc, rfl⟩ := (onChannel_eq_next_iff ..).mp h
    · exact .none
    · exact .full c hc
    · exact .constrained c hc

/-- Only a resetting command takes the block from RUN into HOMING (R210). -/
theorem startsReset_of_mode {i : Instr} {s t : State} (hi : i.isCommand = true) (h : exec i s = .next t)
    (hs : s.mode = .run) (ht : t.mode = .homing) : startsReset s.cfg i := by
  have keep : ∀ {c : Nat} {u : State}, u.mode = .run → onChannel c s u = .next t → False := by
    intro c u hu he
    obtain ⟨-, rfl⟩ := (onChannel_eq_next_iff ..).mp he
    rw [hu] at ht
    cases ht
  have stay : s = t → False := by
    rintro rfl
    rw [hs] at ht
    cases ht
  cases i with
  | rxByte | tick | homeBegin | homeBeat | homeEnd | powerOn => cases hi
  | devReset | sysReset => trivial
  | sysPong | sysStart | sysFallback | empty => exact (stay (by injection h)).elim
  | sysPing =>
    cases h
    rw [State.emit_mode, hs] at ht
    cases ht
  | sysStop =>
    simp only [exec, execSysStop] at h
    split at h
    · cases h
      rw [State.modifyAll_mode, hs] at ht
      cases ht
    · exact (stay (by injection h)).elim
  | broadcast =>
    simp only [exec, execBroadcast] at h
    split at h
    · exact .inl ‹_›
    · split at h
      · exact .inr ‹_›
      · exact (stay (by injection h)).elim
  | devNoteOff => exact (keep (by simpa using hs) h).elim
  | devSetTargetColor | devFallback => exact (keep hs h).elim
  | devNoteOn =>
    simp only [exec, execDevNoteOn] at h
    split at h
    · exact (keep hs h).elim
    · split at h
      · exact (keep hs h).elim
      · exact (keep (by simpa using hs) h).elim
  | devBendPitch =>
    simp only [exec, execDevBendPitch] at h
    split at h
    · exact (keep hs h).elim
    · refine (keep ?_ h).elim
      unfold bendChannel
      split <;> simpa using hs
  | devSetMovement =>
    simp only [exec, execDevSetMovement] at h
    split at h
    · exact (keep hs h).elim
    · exact (keep (by simpa using hs) h).elim
    · exact (keep (by simpa using hs) h).elim

/-- A command for a channel that is there answers a next state (R148, R152). -/
theorem exec_command_next {i : Instr} {s : State} (hi : i.isCommand = true)
    (hc : ∀ c, deviceChannel i = some c → c < s.cfg.nch) : ∃ t, exec i s = .next t := by
  have key : ∀ c t, c < s.cfg.nch → ∃ u, onChannel c s t = .next u := fun c t h => ⟨t, by simp [onChannel, h]⟩
  cases i with
  | rxByte | tick | homeBegin | homeBeat | homeEnd | powerOn => cases hi
  | sysPing | sysPong | sysStart | sysFallback | empty | sysReset => exact ⟨_, rfl⟩
  | sysStop =>
    simp only [exec, execSysStop]
    split <;> exact ⟨_, rfl⟩
  | broadcast =>
    simp only [exec, execBroadcast]
    split
    · exact ⟨_, rfl⟩
    · split <;> exact ⟨_, rfl⟩
  | devReset c | devNoteOff c | devSetTargetColor c | devFallback c => exact key c _ (hc c rfl)
  | devNoteOn c | devBendPitch c | devSetMovement c =>
    simp only [exec, execDevNoteOn, execDevBendPitch, execDevSetMovement]
    repeat' split
    all_goals exact key c _ (hc c rfl)

/-- Everything RX_BYTE can do: nothing while disabled (R120), the parser's work alone, or the parser's work and then one
command (R126). -/
theorem execRxByte_cases {b : Byte} {s t : State} (h : exec (.rxByte b) s = .next t) :
    (rxEnabled s = false ∧ t = s) ∨
    (rxEnabled s = true ∧ (parseByte b s).2 = false ∧ t = (parseByte b s).1) ∨
    (rxEnabled s = true ∧ (parseByte b s).2 = true ∧ ∃ i,
      decodeMessage (parseByte b s).1.cfg (heldMessage (parseByte b s).1) = .ok i ∧ i.isCommand = true ∧
      exec i (parseByte b s).1 = .next t ∧ CommandEffect (parseByte b s).1 t) := by
  simp only [exec, execRxByte] at h
  split at h
  · rename_i he
    split at h
    · rename_i hp
      refine .inr (.inr ⟨he, hp, ?_⟩)
      simp only [handOff] at h
      split at h
      · rename_i i hd
        have hi := decodeMessage_isCommand hd
        rw [runCommand_eq_exec hi] at h
        exact ⟨i, hd, hi, h, exec_command_effect hi h⟩
      · cases h
    · rename_i hp
      cases h
      exact .inr (.inl ⟨he, by simpa using hp, rfl⟩)
  · rename_i he
    cases h
    exact .inl ⟨by simpa using he, rfl⟩

@[simp] theorem homingRun_nil (s : State) : homingRun s [] = s := rfl

/-- A run of homing beats and TICKs, one operation longer (R202). -/
theorem homingRun_concat (s : State) (ops : List Bool) (beat : Bool) :
    homingRun s (ops ++ [beat]) = if beat then homeBeat (homingRun s ops) else tick (homingRun s ops) := by
  simp [homingRun]

/-- The state a step works on: the turn taken from the environment (log entry 4). -/
inductive TurnTaken (s : State) : Turn → State → Prop where
  | scheduled (t : Turn) (rest : List Turn) (h : s.schedule = t :: rest) : TurnTaken s t { s with schedule := rest }
  | free (h : s.schedule = []) : TurnTaken s (Config.freeTurn s.freeIdx) s.drawFree

/-- Everything a step can do: POWER_ON, or the operation of the agent whose turn it is (R6, R72, R280). -/
theorem step_cases {s t : State} (h : step s = .next t) :
    (s.powered = false ∧ exec .powerOn s = .next t) ∨
    (s.powered = true ∧ ∃ turn u, TurnTaken s turn u ∧
      ((∃ b, turn = .host b ∧ t = { u with rxQueue := u.rxQueue ++ [b] }) ∨
       (turn = .tick ∧ exec .tick u = .next t) ∨
       (turn = .main ∧ u.mode = .homing ∧ u.homeCnt < homeBeats u.cfg u.homeSel ∧ exec .homeBeat u = .next t) ∨
       (turn = .main ∧ u.mode = .homing ∧ homeBeats u.cfg u.homeSel ≤ u.homeCnt ∧ exec .homeEnd u = .next t) ∨
       (turn = .main ∧ u.mode = .run ∧ u.rxQueue = [] ∧ t = u) ∨
       (turn = .main ∧ u.mode = .run ∧ ∃ b rest, u.rxQueue = b :: rest ∧
          exec (.rxByte b) { u with rxQueue := rest } = .next t))) := by
  have key : ∀ turn u, runTurn turn u = .next t →
      ((∃ b, turn = .host b ∧ t = { u with rxQueue := u.rxQueue ++ [b] }) ∨
       (turn = .tick ∧ exec .tick u = .next t) ∨
       (turn = .main ∧ u.mode = .homing ∧ u.homeCnt < homeBeats u.cfg u.homeSel ∧ exec .homeBeat u = .next t) ∨
       (turn = .main ∧ u.mode = .homing ∧ homeBeats u.cfg u.homeSel ≤ u.homeCnt ∧ exec .homeEnd u = .next t) ∨
       (turn = .main ∧ u.mode = .run ∧ u.rxQueue = [] ∧ t = u) ∨
       (turn = .main ∧ u.mode = .run ∧ ∃ b rest, u.rxQueue = b :: rest ∧
          exec (.rxByte b) { u with rxQueue := rest } = .next t)) := by
    intro turn u hu
    cases turn with
    | host b =>
      cases hu
      exact .inl ⟨b, rfl, rfl⟩
    | tick => exact .inr (.inl ⟨rfl, hu⟩)
    | main =>
      refine .inr (.inr ?_)
      simp only [runTurn, mainTurn] at hu
      cases hm : u.mode with
      | homing =>
        rw [hm] at hu
        by_cases hc : u.homeCnt < homeBeats u.cfg u.homeSel
        · exact .inl ⟨rfl, rfl, hc, by simpa [hc] using hu⟩
        · exact .inr (.inl ⟨rfl, rfl, by omega, by simpa [hc] using hu⟩)
      | run =>
        rw [hm] at hu
        cases hq : u.rxQueue with
        | nil =>
          rw [hq] at hu
          cases hu
          exact .inr (.inr (.inl ⟨rfl, rfl, rfl, rfl⟩))
        | cons b rest =>
          rw [hq] at hu
          exact .inr (.inr (.inr ⟨rfl, rfl, b, rest, rfl, hu⟩))
  simp only [step, runNext] at h
  by_cases hp : s.powered = true
  · rw [if_pos hp] at h
    refine .inr ⟨hp, ?_⟩
    cases hs : s.schedule with
    | nil =>
      rw [hs] at h
      exact ⟨_, _, .free hs, key _ _ h⟩
    | cons turn rest =>
      rw [hs] at h
      exact ⟨_, _, .scheduled turn rest hs, key _ _ h⟩
  · rw [if_neg hp] at h
    exact .inl ⟨by simpa using hp, h⟩

end Sys2Proof.Machine
end

