-- ==== Sys2Proof/Laws/Levels.lean ====
section
/-! SUPPORT. The levels on the output pins and bridges, event by event of the trace (R220, R224, R233, R282). -/

namespace Sys2Proof.Machine

@[simp] theorem pinLevel_nil (pin : Pin) : pinLevel pin [] = false := rfl
@[simp] theorem bridgeLevel_nil (c : Nat) : bridgeLevel c [] = 0 := rfl

@[simp] theorem pinLevel_pinWrite (pin p : Pin) (level : Bool) (trace : List Output) :
    pinLevel pin (trace ++ [.pinWrite p level]) = if p = pin then level else pinLevel pin trace := by
  simp [pinLevel]

@[simp] theorem bridgeLevel_bridgeWrite (c k w : Nat) (trace : List Output) :
    bridgeLevel c (trace ++ [.bridgeWrite k w]) = if k = c then w else bridgeLevel c trace := by
  simp [bridgeLevel]

/-- Events that do not drive the bridge of channel `c` leave its pattern (R235). -/
theorem bridgeLevel_append {c : Nat} {outs : List Output} (h : ∀ o ∈ outs, o.isBridgeWrite c = false)
    (trace : List Output) : bridgeLevel c (trace ++ outs) = bridgeLevel c trace := by
  induction outs generalizing trace with
  | nil => simp
  | cons o rest ih =>
    rw [List.append_cons, ih fun x hx => h x (by simp [hx])]
    have ho := h o (by simp)
    cases o <;> simp_all [bridgeLevel, Output.isBridgeWrite]

/-- The pin levels at power-on: every pin and every bridge pin is 0 after `power_on_commit()` on the emptied trace (R282). -/
theorem powerOnCommit_levels (s : State) (h : s.trace = []) (c : Nat) (pin : Pin) :
    bridgeLevel c (powerOnCommit s).trace = 0 ∧ pinLevel pin (powerOnCommit s).trace = false := by
  unfold powerOnCommit
  split <;> simp [h, State.emit, bridgeLevel, pinLevel]

end Sys2Proof.Machine
end

