-- ==== Sys2Proof/Laws/PerInstr.lean ====
section
/-! SUPPORT. Facts about every operation as syntax, one lemma a constructor: the shape of its frame (R90). -/

namespace Sys2Proof.Laws.FrameShape

/-- "A frame is `4 + L` bytes, from 4 (`L = 0`) to 259 (`L = 255`)" and begins with the start marker; its fourth byte is
the number of bytes after it (R90). -/
def Statement (i : Instr) : Prop :=
  ∀ cfg bytes, wellFormed cfg i = true → encode cfg i = some bytes →
    4 ≤ bytes.length ∧ bytes.length ≤ 259 ∧ bytes.head? = some cfg.startMarker ∧
    (bytes.getD 3 0).toNat = bytes.length - 4

/-- The shape of a frame with a body of at most 255 bytes. -/
theorem frameBytes_shape (cfg : Config) (target sub : Byte) (body : List Byte) (h : body.length ≤ 255) :
    4 ≤ (frameBytes cfg target sub body).length ∧ (frameBytes cfg target sub body).length ≤ 259 ∧
    (frameBytes cfg target sub body).head? = some cfg.startMarker ∧
    ((frameBytes cfg target sub body).getD 3 0).toNat = (frameBytes cfg target sub body).length - 4 := by
  refine ⟨by simp [frameBytes], by simp [frameBytes]; omega, rfl, ?_⟩
  simp [frameBytes, BitVec.toNat_ofNat]
  omega

theorem of_payload {cfg : Config} {i : Instr} {target sub op : Byte} {payload bytes : List Byte}
    (hw : payload.length ≤ 254) (he : encode cfg i = some bytes)
    (hi : encode cfg i = some (frameBytes cfg target sub (op :: payload))) :
    4 ≤ bytes.length ∧ bytes.length ≤ 259 ∧ bytes.head? = some cfg.startMarker ∧
    (bytes.getD 3 0).toNat = bytes.length - 4 := by
  rw [he] at hi
  cases hi
  exact frameBytes_shape cfg target sub _ (by simp; omega)

theorem sysPing (sub : Byte) (payload : List Byte) : Statement (.sysPing sub payload) := by
  intro cfg bytes hw he
  exact of_payload (by simp [wellFormed, payloadFits] at hw; omega) he rfl

theorem sysPong (sub : Byte) (payload : List Byte) : Statement (.sysPong sub payload) := by
  intro cfg bytes hw he
  exact of_payload (by simp [wellFormed, payloadFits] at hw; omega) he rfl

theorem sysReset (sub : Byte) (payload : List Byte) : Statement (.sysReset sub payload) := by
  intro cfg bytes hw he
  exact of_payload (by simp [wellFormed, payloadFits] at hw; omega) he rfl

theorem sysStart (sub : Byte) (payload : List Byte) : Statement (.sysStart sub payload) := by
  intro cfg bytes hw he
  exact of_payload (by simp [wellFormed, payloadFits] at hw; omega) he rfl

theorem sysStop (sub : Byte) (payload : List Byte) : Statement (.sysStop sub payload) := by
  intro cfg bytes hw he
  exact of_payload (by simp [wellFormed, payloadFits] at hw; omega) he rfl

theorem devReset (c : Nat) (payload : List Byte) : Statement (.devReset c payload) := by
  intro cfg bytes hw he
  exact of_payload (by simp [wellFormed, payloadFits] at hw; omega) he rfl

theorem devNoteOff (c : Nat) (payload : List Byte) : Statement (.devNoteOff c payload) := by
  intro cfg bytes hw he
  exact of_payload (by simp [wellFormed, payloadFits] at hw; omega) he rfl

theorem devNoteOn (c : Nat) (payload : List Byte) : Statement (.devNoteOn c payload) := by
  intro cfg bytes hw he
  exact of_payload (by simp [wellFormed, payloadFits] at hw; omega) he rfl

theorem devBendPitch (c : Nat) (payload : List Byte) : Statement (.devBendPitch c payload) := by
  intro cfg bytes hw he
  exact of_payload (by simp [wellFormed, payloadFits] at hw; omega) he rfl

theorem devSetMovement (c : Nat) (payload : List Byte) : Statement (.devSetMovement c payload) := by
  intro cfg bytes hw he
  exact of_payload (by simp [wellFormed, payloadFits] at hw; omega) he rfl

theorem devSetTargetColor (c : Nat) (payload : List Byte) : Statement (.devSetTargetColor c payload) := by
  intro cfg bytes hw he
  exact of_payload (by simp [wellFormed, payloadFits] at hw; omega) he rfl

theorem sysFallback (sub op : Byte) (payload : List Byte) : Statement (.sysFallback sub op payload) := by
  intro cfg bytes hw he
  exact of_payload (by simp [wellFormed, payloadFits] at hw; omega) he rfl

theorem devFallback (c : Nat) (op : Byte) (payload : List Byte) : Statement (.devFallback c op payload) := by
  intro cfg bytes hw he
  exact of_payload (by simp [wellFormed, payloadFits] at hw; omega) he rfl

theorem broadcast (op : Byte) (payload : List Byte) : Statement (.broadcast op payload) := by
  intro cfg bytes hw he
  exact of_payload (by simpa [wellFormed, payloadFits] using hw) he rfl

theorem empty (target sub : Byte) : Statement (.empty target sub) := by
  intro cfg bytes _ he
  cases he
  exact frameBytes_shape cfg target sub [] (by simp)

theorem rxByte (b : Byte) : Statement (.rxByte b) := by
  intro cfg bytes _ he
  cases he

theorem tick : Statement (.tick) := by
  intro cfg bytes _ he
  cases he

theorem homeBegin (sel : List Nat) : Statement (.homeBegin sel) := by
  intro cfg bytes _ he
  cases he

theorem homeBeat : Statement (.homeBeat) := by
  intro cfg bytes _ he
  cases he

theorem homeEnd : Statement (.homeEnd) := by
  intro cfg bytes _ he
  cases he

theorem powerOn : Statement (.powerOn) := by
  intro cfg bytes _ he
  cases he

end Sys2Proof.Laws.FrameShape
end

