-- ==== Sys2Proof/Tests/Slice0.lean ====
section
/-! SUPPORT. Small checks of the model: the well-formedness checks, words of the encoding written out from 30_encoding.md,
vectors of 95_test_vectors.md (their number is in the theorem's name), and a witness for the hypotheses of every
statement. -/

namespace Sys2Proof.Tests

open Sys2Proof.Machine

/-! ### The test configuration and small states -/

/-- The test configuration TC of 95_test_vectors.md section 0. -/
def tc : Config :=
  { Config.default with
    maxSub := 2#8
    fullMax := [4, 4]
    constrMin := [1, 1]
    constrMax := [3, 3]
    homeTransitions := [4, 4]
    homeAtStartup := false
    bendOctaves := mkRat 1 1 }

/-- TC with the shift register, with the H-bridge, with the startup homing, with the other choices of the two open
parameters. -/
def tcShift : Config := { tc with backend := .shiftRegister }
def tcBridge : Config := { tc with backend := .hBridge }
def tcStartup : Config := { tc with homeAtStartup := true }
def tcOther : Config := { tc with broadcastPolicy := .allToSysReset, seqStopSilences := false }

/-- A lane with the full bounds of TC. -/
def lane (cur orig el : Nat) (pos : Int) (dir : Dir) (out : Bool) : Lane :=
  ⟨⟨cur, orig, el, pos, dir, 0, 4, out⟩, 0⟩

/-- The power-on state of a configuration in `MODE = RUN` (95_test_vectors.md section 0). -/
def on (cfg : Config) : State := { State.initial cfg with powered := true }

/-- The power-on state of TC. -/
def s0 : State := on tc

/-- The start of V-D6 and V-H2: both channels playing, with the pins and the latch at their registers. -/
def playing (cfg : Config) : State :=
  { on cfg with
    lanes := [lane 3 3 1 2 .forward false, lane 2 2 1 3 .forward true]
    srLatch := 2
    trace := [.srCommit 2, .pinWrite (.step 1) true] }

/-- `HOME_BEGIN({1})` done on V-H2's start. -/
def homing (cfg : Config) (cnt : Nat) : State :=
  { playing cfg with
    lanes := [lane 3 3 1 2 .forward false, lane 0 0 1 3 .reverse true]
    homeSel := [1]
    homeCnt := cnt
    mode := .homing
    schedule := [.main] }

/-- A parser state with address bytes accepted. -/
def parsing (p : PState) (len cnt : Byte) : State :=
  { s0 with pstate := p, fTarget := 1, fSub := 1, fLen := len, fCnt := cnt }

/-- The state an outcome answers, if it is a next state. -/
def stateOf : Host.Outcome State Fault Refusal → Option State
  | .next s => some s
  | .fault _ => none
  | .refused _ => none

/-- The refusal an outcome answers, if it is one. -/
def refusalOf : Host.Outcome State Fault Refusal → Option Refusal
  | .next _ => none
  | .fault _ => none
  | .refused r => some r

/-- What `f` sees of the state an operation answers. -/
def sees {α : Type} (f : State → α) (o : Host.Outcome State Fault Refusal) : Option α := (stateOf o).map f

/-- The step that consumes the last byte of a frame. -/
def runFrame (frame : List Byte) (s : State) : Host.Outcome State Fault Refusal := step (placeFrame frame s)

/-- `CUR`, `ORIG`, `EL`, `POS` of a channel. -/
structure Counts where
  cur : Nat
  orig : Nat
  el : Nat
  pos : Int
  deriving DecidableEq

/-- `DIR` and `OUT` of a channel. -/
structure Flags where
  dir : Dir
  out : Bool
  deriving DecidableEq

/-- `CUR`, `ORIG`, `EL`, `POS` of every channel. -/
def regs (s : State) : List Counts :=
  s.lanes.map fun l => ⟨l.ch.curPeriod, l.ch.origPeriod, l.ch.elapsed, l.ch.position⟩

/-- `DIR` and `OUT` of every channel. -/
def flags (s : State) : List Flags := s.lanes.map fun l => ⟨l.ch.dir, l.ch.out⟩

/-- `MIN` and `MAX` of every channel. -/
def bounds (s : State) : List (Int × Int) := s.lanes.map fun l => (l.ch.minPos, l.ch.maxPos)

/-- Whether an operation answers a next state. -/
def runs (o : Host.Outcome State Fault Refusal) : Bool := (stateOf o).isSome

theorem test_default_valid : Config.default.valid = true := by decide +kernel
theorem test_tc_valid : tc.valid = true := by decide +kernel
theorem test_tcShift_valid : tcShift.valid = true := by decide +kernel
theorem test_tcBridge_valid : tcBridge.valid = true := by decide +kernel
theorem test_tcStartup_valid : tcStartup.valid = true := by decide +kernel

/-! ### Well-formedness: one ill-formed term for each check -/

theorem test_illFormed_subAddress : wellFormed tc (.sysPing 3 []) = false := by decide
theorem test_illFormed_payload : wellFormed tc (.sysStop 0 (List.replicate 255 0)) = false := by decide +kernel
theorem test_illFormed_channel : wellFormed tc (.devNoteOn 2 [60]) = false := by decide
theorem test_illFormed_devicePayload : wellFormed tc (.devNoteOff 1 (List.replicate 255 0)) = false := by decide +kernel
theorem test_illFormed_sysFallback : wellFormed tc (.sysFallback 0 0xFA []) = false := by decide
theorem test_illFormed_devFallback : wellFormed tc (.devFallback 0 0x0E []) = false := by decide
theorem test_illFormed_broadcast : wellFormed tc (.broadcast 9 (List.replicate 255 0)) = false := by decide +kernel
theorem test_illFormed_target : wellFormed tc (.empty 2 1) = false := by decide
theorem test_illFormed_emptySub : wellFormed tc (.empty 1 3) = false := by decide
theorem test_illFormed_homingSets :
    wellFormed tc (.homeBegin []) = false ∧ wellFormed tc (.homeBegin [1, 0]) = false ∧
    wellFormed tc (.homeBegin [0, 0]) = false ∧ wellFormed tc (.homeBegin [2]) = false := by decide
theorem test_wellFormed_longest :
    wellFormed tc (.devNoteOn 1 (List.replicate 254 0)) = true ∧ wellFormed tc (.homeBegin [0, 1]) = true := by decide +kernel

/-! ### Configurations R7 and R8 rule out, one a constraint -/

theorem test_invalid_addresses :
    Config.valid { tc with deviceAddress := 0 } = false ∧ Config.valid { tc with minSub := 0 } = false ∧
    Config.valid { tc with minSub := 3 } = false := by decide +kernel
theorem test_invalid_tables :
    Config.valid { tc with freqRom := List.replicate 128 65536 } = false ∧
    Config.valid { tc with freqRom := [] } = false ∧ Config.valid { tcShift with srWidth := 1 } = false ∧
    Config.valid { tcBridge with stepTable := [] } = false ∧ Config.valid { tc with bridgePins := 3 } = false := by
  decide +kernel
theorem test_invalid_bounds :
    Config.valid { tc with fullMax := [0, 4] } = false ∧ Config.valid { tc with constrMin := [1, 3] } = false ∧
    Config.valid { tc with constrMax := [5, 3] } = false ∧ Config.valid { tc with posW := 3 } = false := by
  decide +kernel
theorem test_invalid_opcodes :
    Config.valid { tc with opcSysPong := 0xFF } = false ∧ Config.valid { tc with opcDevSetMovement := 9 } = false ∧
    Config.valid { tc with bendOctaves := 0 } = false := by decide +kernel
/-- "at least the full travel" for a backend with travel, "0 allowed otherwise" (R7, R208); V-H1 and V-H4 are boards
without travel (D26). -/
theorem test_valid_homeTransitions :
    Config.valid { tc with homeTransitions := [4, 2] } = false ∧
    Config.valid { tc with homeTransitions := [0, 0] } = false ∧
    Config.valid { tcBridge with homeTransitions := [3, 4] } = false ∧
    Config.valid { tcBridge with homeTransitions := [4, 9] } = true ∧
    Config.valid { tc with homeTransitions := [4, 2], travel := false } = true ∧
    Config.valid { tc with homeTransitions := [0, 0], travel := false } = true ∧
    Config.valid { tcShift with homeTransitions := [0, 0] } = true := by decide +kernel

/-! ### Words of the encoding (R90, R95, R97, R109), each decoded and encoded -/

/-- The frame decodes to the command, and the command is encoded by the frame. -/
def codes (frame : List Byte) (i : Instr) : Bool :=
  (match decode Config.default frame with
    | .ok (j, rest) => j == i && rest.isEmpty
    | .error _ => false) && encode Config.default i == some frame

theorem test_word_system :
    codes [0x4D, 0x00, 0x00, 0x01, 0x80] (.sysPing 0 []) = true ∧
    codes [0x4D, 0x00, 0x00, 0x04, 0x81, 0x01, 0x01, 0x08] (.sysPong 0 [0x01, 0x01, 0x08]) = true ∧
    codes [0x4D, 0x00, 0x00, 0x01, 0xFF] (.sysReset 0 []) = true ∧
    codes [0x4D, 0x00, 0x00, 0x01, 0xFA] (.sysStart 0 []) = true ∧
    codes [0x4D, 0x00, 0x08, 0x01, 0xFC] (.sysStop 8 []) = true := by decide
theorem test_word_device :
    codes [0x4D, 0x01, 0x01, 0x01, 0x00] (.devReset 0 []) = true ∧
    codes [0x4D, 0x01, 0x02, 0x02, 0x08, 0x3E] (.devNoteOff 1 [0x3E]) = true ∧
    codes [0x4D, 0x01, 0x01, 0x03, 0x09, 0x3C, 0x7F] (.devNoteOn 0 [0x3C, 0x7F]) = true ∧
    codes [0x4D, 0x01, 0x08, 0x03, 0x0E, 0xE0, 0x00] (.devBendPitch 7 [0xE0, 0x00]) = true ∧
    codes [0x4D, 0x01, 0x01, 0x02, 0xF0, 0x01] (.devSetMovement 0 [0x01]) = true ∧
    codes [0x4D, 0x01, 0x01, 0x01, 0xF1] (.devSetTargetColor 0 []) = true := by decide
theorem test_word_fallback :
    codes [0x4D, 0x00, 0x01, 0x02, 0x09, 0x3E] (.sysFallback 1 0x09 [0x3E]) = true ∧
    codes [0x4D, 0x01, 0x01, 0x01, 0x80] (.devFallback 0 0x80 []) = true ∧
    codes [0x4D, 0x01, 0x00, 0x02, 0x09, 0x3E] (.broadcast 0x09 [0x3E]) = true ∧
    codes [0x4D, 0x01, 0x01, 0x00] (.empty 1 1) = true ∧ codes [0x4D, 0x00, 0x00, 0x00] (.empty 0 0) = true := by decide
theorem test_event_no_encoding :
    encode Config.default (.rxByte 0x4D) = none ∧ encode Config.default .tick = none ∧
    encode Config.default (.homeBegin [0]) = none ∧ encode Config.default .homeBeat = none ∧
    encode Config.default .homeEnd = none ∧ encode Config.default .powerOn = none := by decide
theorem test_decode_errors :
    decode tc [0xFF, 0x4D] = .error .noStartMarker ∧ decode tc [0x4D, 0x02] = .error .foreignTarget ∧
    decode tc [0x4D, 0x00, 0x03, 0x01, 0xFF] = .error .badSubAddress ∧
    decode tc [0x4D, 0x01, 0x01, 0x02, 0x09] = .error .needMoreBytes ∧ decode tc [] = .error .needMoreBytes := by decide

/-- The rows of the opcode table with a command byte, as the table's words (log entry 20). -/
theorem test_tableWords :
    decodeTableWord 8 0x80 = some (.sysPing 0 [0, 0]) ∧ decodeTableWord 8 0x81 = some (.sysPong 0 [0, 0]) ∧
    decodeTableWord 8 0xFF = some (.sysReset 0 [0, 0]) ∧ decodeTableWord 8 0xFA = some (.sysStart 0 [0, 0]) ∧
    decodeTableWord 8 0xFC = some (.sysStop 0 [0, 0]) ∧ decodeTableWord 8 0x00 = some (.devReset 0 [0, 0]) ∧
    decodeTableWord 8 0x08 = some (.devNoteOff 0 [0, 0]) ∧ decodeTableWord 8 0x09 = some (.devNoteOn 0 [0, 0]) ∧
    decodeTableWord 8 0x0E = some (.devBendPitch 0 [0, 0]) := by decide

/-- A placed word is the very next instruction from reset. -/
theorem test_fetch_ping :
    sees (·.trace) (step (State.reset.withFetchWord 8 0x80)) = some [.txBytes [0x4D, 0, 0, 4, 0x81, 1, 1, 8]] := by
  decide
theorem test_fetch_reset :
    sees (fun s => (s.mode, s.homeSel)) (step (State.reset.withFetchWord 8 0x00)) = some (.homing, [0]) := by decide

/-! ### System commands -/

theorem test_vs8_ping :
    sees (fun s => (s.trace, regs s)) (runFrame [0x4D, 0, 0, 1, 0x80] s0) =
      some ([.txBytes [0x4D, 0, 0, 4, 0x81, 1, 1, 2]], regs s0) := by decide
theorem test_vp5_ping_payload :
    sees (·.trace) (runFrame [0x4D, 0, 2, 3, 0x80, 0xAA, 0xBB] s0) = some [.txBytes [0x4D, 0, 0, 4, 0x81, 1, 1, 2]] := by
  decide
theorem test_vd2_pong :
    sees (fun s => (s.trace, s.lanes == s0.lanes, s.mode)) (runFrame [0x4D, 0, 0, 1, 0x81] s0) =
      some ([], true, .run) := by decide
theorem test_vd7_start :
    sees (fun s => (s.trace, s.lanes == s0.lanes, s.mode)) (runFrame [0x4D, 0, 0, 1, 0xFA] s0) =
      some ([], true, .run) := by decide
theorem test_vd6_stop :
    sees (fun s => (regs s, flags s, s.mode)) (runFrame [0x4D, 0, 0, 1, 0xFC] (playing tc)) =
      some ([⟨0, 0, 1, 2⟩, ⟨0, 0, 1, 3⟩], [⟨.forward, false⟩, ⟨.forward, true⟩], .run) := by decide
theorem test_vd6_stop_noop :
    sees regs (runFrame [0x4D, 0, 0, 1, 0xFC] (playing tcOther)) = some [⟨3, 3, 1, 2⟩, ⟨2, 2, 1, 3⟩] := by decide
theorem test_vh1_system_reset :
    sees (fun s => (s.mode, s.homeSel, flags s, s.trace)) (runFrame [0x4D, 0, 0, 1, 0xFF] s0) =
      some (.homing, [0, 1], [⟨.reverse, false⟩, ⟨.reverse, false⟩],
        [.pinWrite (.dir 0) true, .pinWrite (.dir 1) true]) := by decide
theorem test_vd11_system_fallback :
    sees (fun s => (regs s, s.trace)) (runFrame [0x4D, 0, 1, 2, 9, 0x3E] (playing tc)) =
      some (regs (playing tc), (playing tc).trace) := by decide
theorem test_vd4_broadcast_reset :
    sees (fun s => (regs s, s.mode)) (runFrame [0x4D, 1, 0, 1, 0] (playing tc)) =
      some ([⟨0, 0, 1, 2⟩, ⟨0, 0, 1, 3⟩], .homing) := by decide
theorem test_vd5_broadcast_note :
    sees (fun s => (regs s, s.mode)) (runFrame [0x4D, 1, 0, 2, 9, 0x3E] (playing tc)) =
      some (regs (playing tc), .run) ∧
    sees (fun s => (regs s, s.mode)) (runFrame [0x4D, 1, 0, 2, 9, 0x3E] (playing tcOther)) =
      some ([⟨0, 0, 1, 2⟩, ⟨0, 0, 1, 3⟩], .homing) := by decide
theorem test_vp4_empty :
    sees (fun s => (s.lanes == s0.lanes, s.pstate, s.trace)) (exec (.rxByte 0) (parsing .len 0 0)) =
      some (true, .seek, []) := by decide

/-! ### Device commands -/

theorem test_vd1_device_fallback :
    sees (fun s => (s.lanes == s0.lanes, s.trace)) (runFrame [0x4D, 1, 1, 1, 0x55] s0) = some (true, []) := by decide
theorem test_vd3_ping_in_device_space :
    sees (fun s => (s.lanes == s0.lanes, s.trace)) (runFrame [0x4D, 1, 1, 1, 0x80] s0) = some (true, []) := by decide
theorem test_colour_noop :
    sees (fun s => (regs s, s.trace)) (runFrame [0x4D, 1, 1, 1, 0xF1] (playing tc)) =
      some (regs (playing tc), (playing tc).trace) := by decide
theorem test_vd8_movement_constrained :
    sees (fun s => (bounds s, regs s)) (runFrame [0x4D, 1, 1, 2, 0xF0, 1] (playing tc)) =
      some ([(1, 3), (0, 4)], regs (playing tc)) := by decide
theorem test_vd9_movement_full :
    sees bounds (runFrame [0x4D, 1, 1, 2, 0xF0, 0]
      ((playing tc).modifyChan 0 fun ch => { ch with minPos := 1, maxPos := 3 })) = some [(0, 4), (0, 4)] := by decide
theorem test_vh2_device_reset :
    sees (fun s => (regs s, flags s, s.homeSel)) (runFrame [0x4D, 1, 2, 1, 0] (playing tc)) =
      some ([⟨3, 3, 1, 2⟩, ⟨0, 0, 1, 3⟩], [⟨.forward, false⟩, ⟨.reverse, true⟩], [1]) := by decide
theorem test_vn1_note_on :
    sees regs (runFrame [0x4D, 1, 2, 2, 9, 0x3E] s0) = some [⟨0, 0, 0, 0⟩, ⟨2, 2, 0, 0⟩] := by decide
theorem test_vn3_note_128 :
    sees regs (runFrame [0x4D, 1, 1, 2, 9, 0x80] (playing tc)) = some (regs (playing tc)) := by decide
theorem test_vn6_note_off :
    sees (fun s => (regs s, flags s)) (runFrame [0x4D, 1, 2, 1, 8] (playing tc)) =
      some ([⟨3, 3, 1, 2⟩, ⟨0, 0, 1, 3⟩], [⟨.forward, false⟩, ⟨.forward, true⟩]) := by decide
theorem test_vn7_note_off_other_note :
    sees regs (runFrame [0x4D, 1, 1, 2, 8, 0x3E] (playing tc)) = some [⟨0, 0, 1, 2⟩, ⟨2, 2, 1, 3⟩] := by decide

/-- A state whose channel 0 has the original period `p`. -/
def basis (p : Nat) : State := s0.modifyChan 0 fun ch => { ch with origPeriod := p }

theorem test_vb1_bend_octave_down :
    sees regs (runFrame [0x4D, 1, 1, 3, 0x0E, 0xE0, 0] (basis 100)) = some [⟨200, 100, 0, 0⟩, ⟨0, 0, 0, 0⟩] := by
  decide +kernel
theorem test_vb10_bend_overflow_keeps_the_rest :
    sees (fun s => s.lanes.map fun l => (l.ch.origPeriod, l.ch.elapsed))
      (runFrame [0x4D, 1, 1, 3, 0x0E, 0xE0, 0] (basis 40000)) = some [(40000, 0), (0, 0)] := by decide +kernel

/-- The nominal values of 95_test_vectors.md section 2.4, as the two whole numbers around each. -/
theorem test_bend_nominals :
    bendFloor tc 100 4096 = 70 ∧ bendFloor tc 100 8191 = 50 ∧ bendFloor tc 100 (-4096) = 141 ∧
    bendFloor tc 100 1 = 99 ∧ bendFloor tc 100 (-1) = 100 ∧ bendFloor tc 3 4096 = 2 ∧ bendFloor tc 1 4096 = 0 := by
  decide +kernel
theorem test_bend_nominals_whole_tone :
    bendFloor Config.default 100 (-8192) = 112 ∧ bendFloor Config.default 100 4096 = 94 ∧
    bendFloor Config.default 100 8191 = 89 ∧ bendFloor Config.default 3 (-4096) = 3 := by decide +kernel

/-! ### Events -/

theorem test_vp6_bad_subAddress : sees (·.pstate) (exec (.rxByte 3) (parsing .sub 0 0)) = some .seek := by decide
theorem test_vp10_second_marker : sees (·.pstate) (exec (.rxByte 0x4D) (parsing .target 0 0)) = some .seek := by decide
theorem test_vt4_upper_bound :
    sees (fun s => (regs s, flags s, s.trace))
      (exec .tick { s0 with lanes := [lane 3 3 2 4 .forward false, lane 0 0 0 0 .forward false] }) =
      some ([⟨3, 3, 0, 3⟩, ⟨0, 0, 0, 0⟩], [⟨.reverse, true⟩, ⟨.forward, false⟩],
        [.pinWrite (.dir 0) true, .pinWrite (.step 0) true]) := by decide
theorem test_vt9_ascending_events :
    sees (fun s => (regs s, s.trace))
      (exec .tick { s0 with lanes := [lane 3 3 2 1 .forward true, lane 2 2 1 2 .forward false] }) =
      some ([⟨3, 3, 0, 2⟩, ⟨2, 2, 0, 3⟩], [.pinWrite (.step 0) false, .pinWrite (.step 1) true]) := by decide
theorem test_vo7_home_begin_no_event :
    sees (fun s => (s.trace, s.mode)) (exec (.homeBegin [0])
      { s0 with lanes := [lane 0 0 0 2 .reverse false, lane 0 0 0 0 .forward false] }) =
      some ([], .homing) := by decide
theorem test_vh2_home_beat :
    sees (fun s => (s.homeCnt, regs s, s.trace)) (exec .homeBeat { homing tc 0 with trace := [] }) =
      some (1, [⟨3, 3, 1, 2⟩, ⟨0, 0, 1, 3⟩], [.pinWrite (.step 1) false]) := by decide
theorem test_vo4_home_beat_commit :
    sees (fun s => (s.srLatch, s.trace)) (exec .homeBeat { homing tcShift 0 with
      lanes := [lane 0 0 0 0 .reverse true, lane 0 0 0 0 .reverse false], homeSel := [0, 1], trace := [] }) =
      some (2, [.srCommit 2]) := by decide
theorem test_vh2_home_end :
    sees (fun s => (regs s, flags s, s.mode, s.trace)) (exec .homeEnd { homing tc 4 with trace := [] }) =
      some ([⟨3, 3, 1, 2⟩, ⟨0, 0, 0, 0⟩], [⟨.forward, false⟩, ⟨.forward, true⟩], .run,
        [.pinWrite (.dir 1) false]) := by decide
theorem test_vr3_power_on_startup :
    sees (fun s => (s.mode, s.homeSel, flags s, s.trace)) (exec .powerOn (State.initial tcStartup)) =
      some (.homing, [0, 1], [⟨.reverse, false⟩, ⟨.reverse, false⟩],
        [.pinWrite (.dir 0) true, .pinWrite (.dir 1) true]) := by decide +kernel
theorem test_vo1_power_on_commit :
    sees (fun s => (s.srLatch, s.trace, bounds s)) (exec .powerOn (State.initial tcShift)) =
      some (0, [.srCommit 0], [(0, 4), (0, 4)]) := by decide +kernel
/-- "every bridge pin 0 (coils off), no event" (R282). -/
theorem test_power_on_bridge_pins :
    sees (fun s => (bridgeLevel 0 s.trace, bridgeLevel 1 s.trace, s.trace)) (exec .powerOn (State.initial tcBridge)) =
      some (0, 0, []) := by decide +kernel
/-- R233's example on the pins: the first reverse `apply` drives `STEP_TABLE[3]`. -/
theorem test_vo6_bridge_pins :
    sees (fun s => (bridgeLevel 0 s.trace, bridgeLevel 1 s.trace)) (exec .homeBeat { homing tcBridge 0 with
      lanes := [lane 0 0 0 0 .reverse true, lane 2 2 1 3 .forward true], homeSel := [0], trace := [] }) =
      some (0b1001, 0) := by decide
theorem test_vo3_pack :
    packOuts [lane 0 0 0 0 .forward true, lane 0 0 0 0 .forward false, lane 0 0 0 0 .forward true] = 0b101 := by decide
theorem test_vo6_bridge_reverse :
    (applyLane tcBridge 0 .reverse (lane 0 0 0 0 .reverse true)).outs = [.bridgeWrite 0 0b1001] ∧
    (applyLane tcBridge 0 .reverse (lane 0 0 0 0 .reverse true)).lane.phase = 3 := by decide

/-! ### States that meet the invariant -/

/-- Two lanes in order are all lanes in order. -/
theorem two_lanes {cfg : Config} {l0 l1 : Lane} (h0 : LaneOk cfg 0 l0) (h1 : LaneOk cfg 1 l1) (c : Nat) (l : Lane)
    (h : [l0, l1][c]? = some l) : LaneOk cfg c l := by
  match c with
  | 0 => cases h; exact h0
  | 1 => cases h; exact h1
  | k + 2 => simp at h

/-- The lanes of `playing` and `homing` are in order under every backend of TC. -/
theorem playing_lanes (cfg : Config) (h : cfg = tc ∨ cfg = tcShift ∨ cfg = tcBridge) (c : Nat) (l : Lane)
    (hl : (playing cfg).lanes[c]? = some l) : LaneOk cfg c l := by
  refine two_lanes ?_ ?_ c l hl <;> rcases h with rfl | rfl | rfl <;> constructor <;> decide
theorem homing_lanes (cfg : Config) (n : Nat) (h : cfg = tc ∨ cfg = tcShift ∨ cfg = tcBridge) (c : Nat) (l : Lane)
    (hl : (homing cfg n).lanes[c]? = some l) : LaneOk cfg c l := by
  refine two_lanes ?_ ?_ c l hl <;> rcases h with rfl | rfl | rfl <;> constructor <;> decide

/-- Both channels playing, the parser in `SEEK`. -/
theorem playing_inv : (playing tc).Inv where
  config := test_tc_valid
  lanes_length := by decide
  lane := playing_lanes tc (.inl rfl)
  parser := by constructor <;> decide +kernel
  homing := by constructor <;> decide
  latch_lt := by decide

/-- The same under the shift register, with a TICK next in which channel 1 steps. -/
theorem playingShift_inv : { playing tcShift with schedule := [.tick] }.Inv where
  config := test_tcShift_valid
  lanes_length := by decide
  lane := playing_lanes tcShift (.inr (.inl rfl))
  parser := by constructor <;> decide +kernel
  homing := by constructor <;> decide
  latch_lt := by decide

/-- Channel 1 homing, some beats done: none, and all. -/
theorem homing_inv (n : Nat) (h : n ≤ 4) : (homing tc n).Inv where
  config := test_tc_valid
  lanes_length := rfl
  lane := homing_lanes tc n (.inl rfl)
  parser := by
    refine ⟨List.length_replicate, ?_, ?_, nofun⟩
    · rintro (h | h | h) <;> exact nomatch h
    · rintro (h | h) <;> exact nomatch h
  homing := ⟨nofun, fun _ => rfl, fun _ => h, fun _ => rfl, fun _ c hc l hl => by
    obtain rfl : c = 1 := by simpa [homing] using hc
    cases hl
    exact ⟨rfl, rfl, rfl⟩⟩
  latch_lt := nofun

/-- The last byte of a system reset is next (`4D 00 00 01` received). -/
def beforeReset : State :=
  { playing tc with pstate := .body, fTarget := 0, fSub := 0, fLen := 1, fCnt := 0, rxQueue := [0xFF], schedule := [.main] }

theorem beforeReset_inv : beforeReset.Inv where
  config := test_tc_valid
  lanes_length := by decide
  lane := playing_lanes tc (.inl rfl)
  parser := by constructor <;> decide +kernel
  homing := by constructor <;> decide
  latch_lt := by decide

/-! ### Witnesses: for each statement with hypotheses, inputs that meet them together, clause by clause -/

theorem witness_InitialRegistersHoldTheirResetValues : 0 < tc.nch ∧ 1 < tc.nch ∧ ¬ 2 < tc.nch := by decide
theorem witness_PowerOnWritesTheInitialRecordsAndCommits :
    (State.initial tc).powered = false ∧ (State.initial tc).cfg.valid = true ∧
    (State.initial tcShift).cfg.valid = true ∧ (State.initial tcBridge).cfg.valid = true ∧
    (State.initial tcStartup).cfg.valid = true ∧ tcStartup.homeAtStartup = true ∧ s0.powered = true ∧
    runs (exec .tick s0) = true ∧ runs (step (State.initial tc)) = true := by decide +kernel
theorem witness_BadOperandsAreRefusedByName :
    (State.initial { tc with minSub := 0 }).powered = false ∧
    (State.initial { tc with minSub := 0 }).cfg.valid = false ∧ deviceChannel (.devReset 2 []) = some 2 ∧
    s0.cfg.nch ≤ 2 ∧ selectionOk s0.cfg [] = false ∧ selectionOk s0.cfg [2] = false ∧
    selectionOk s0.cfg [1, 0] = false := by decide +kernel
theorem witness_DisabledOperationsLeaveTheState :
    s0.powered = true ∧ (State.initial tc).powered = false ∧ (homing tc 0).mode = .homing ∧ s0.mode = .run ∧
    homeBeats (homing tc 4).cfg (homing tc 4).homeSel ≤ (homing tc 4).homeCnt ∧
    (homing tc 3).homeCnt ≠ homeBeats (homing tc 3).cfg (homing tc 3).homeSel := by decide
theorem witness_PingSendsOnlyTheLivenessReply :
    subAccepted tc 0 = true ∧ subAccepted tc 2 = true ∧ tc.valid = true := by decide +kernel
theorem witness_TheOnlyReplyIsTheLivenessFrame :
    tc.valid = true ∧ sees (·.trace) (exec (.sysPing 0 []) s0) = some [.txBytes [0x4D, 0, 0, 4, 0x81, 1, 1, 2]] := by
  decide +kernel
theorem witness_StartPongAndSystemFallbackAreNoOps :
    tc.valid = true ∧ subAccepted tc 0 = true ∧ subAccepted tc 2 = true ∧ (0x09 : Byte) ∉ tc.systemOpcodes := by
  decide +kernel
theorem witness_EmptyMessageIsANoOp :
    targetAccepted tc 0 = true ∧ targetAccepted tc 1 = true ∧ subAccepted tc 0 = true ∧ subAccepted tc 2 = true := by
  decide
theorem witness_StopSilencesEveryChannelOrNothing :
    (playing tc).cfg.seqStopSilences = true ∧ (playing tcOther).cfg.seqStopSilences = false ∧
    (playing tc).cfg.valid = true ∧ subAccepted (playing tc).cfg 2 = true := by decide +kernel
theorem witness_ResetsBeginHoming :
    1 < (playing tc).cfg.nch ∧ (playing tc).cfg.valid = true ∧ subAccepted (playing tc).cfg 0 = true := by
  decide +kernel
theorem witness_BroadcastFollowsThePolicy :
    (0 : Byte) = s0.cfg.opcDevReset ∧ (on tcOther).cfg.broadcastPolicy = .allToSysReset ∧
    (9 : Byte) ≠ s0.cfg.opcDevReset ∧ s0.cfg.broadcastPolicy = .resetOnly ∧ s0.cfg.valid = true := by decide +kernel
theorem witness_DeviceFallbackAndColourAreNoOps :
    1 < s0.cfg.nch ∧ tc.valid = true ∧
    (∀ op ∈ ([0x01, 0xF1] : List Byte), op ≠ tc.opcDevReset ∧ op ≠ tc.opcDevNoteOff ∧ op ≠ tc.opcDevNoteOn ∧
      op ≠ tc.opcDevBendPitch ∧ op ≠ tc.opcDevSetMovement) := by decide +kernel
theorem witness_OnlyChannelsInRangeAreReached :
    tc.valid = true ∧ decodeMessage tc ⟨1, 2, some 9, [60]⟩ = .ok (.devNoteOn 1 [60]) ∧
    deviceChannel (.devNoteOn 1 [60]) = some 1 ∧ subAccepted s0.cfg 3 = false := by decide +kernel
theorem witness_DeviceCommandsTouchOneChannel :
    deviceChannel (.devNoteOff 1 []) = some 1 ∧ runs (exec (.devNoteOff 1 []) (playing tc)) = true ∧
    (0 : Nat) ≠ 1 ∧
    { playing tc with lanes := [lane 0 0 0 0 .forward false, lane 2 2 1 3 .forward true] }.lanes[1]? =
      (playing tc).lanes[1]? := by decide

/-- TC with every note playable, so that the last note of the ROM is. -/
def tcFullRom : Config := { tc with freqRom := List.replicate 128 5 }

theorem witness_NoteOnStoresTheRomEntryOrNothing :
    1 < (on tcFullRom).cfg.nch ∧ (127#8).toNat ≤ 127 ∧ (on tcFullRom).cfg.freqRom.getD (127#8).toNat 0 ≠ 0 ∧
    (on tcFullRom).cfg.freqRom.getD (0#8).toNat 0 ≠ 0 ∧ 127 < (128#8).toNat ∧
    s0.cfg.freqRom.getD (127#8).toNat 0 = 0 ∧ (on tcFullRom).cfg.valid = true := by decide +kernel
theorem witness_NoteOffClearsBothPeriods : 1 < (playing tc).cfg.nch ∧ (playing tc).cfg.valid = true := by
  decide +kernel
theorem witness_NoteAndBendCommandsWriteOnlyPeriods :
    runs (exec (.devNoteOn 1 [60]) s0) = true ∧ runs (exec (.devNoteOff 1 []) s0) = true ∧
    runs (exec (.devBendPitch 1 [0, 0]) s0) = true ∧ runs (exec (.devBendPitch 1 [0x20, 0]) s0) = true ∧
    s0.lanes[0]? = some (lane 0 0 0 0 .forward false) ∧ (0 : Nat) ≠ 1 := by decide +kernel
theorem witness_BendRecomputesFromTheOriginalPeriod :
    0 < (basis 100).cfg.nch ∧ ([0xE0] : List Byte).length < 2 ∧
    (0xE0#8 ++ 0x00#8).toInt = -8192 ∧ bendFits (basis 100).cfg ((basis 100).chan 0).origPeriod (-8192) = true ∧
    (0x1F#8 ++ 0xFF#8).toInt = 8191 ∧ bendFits (basis 100).cfg ((basis 100).chan 0).origPeriod 8191 = true ∧
    (0xDF#8 ++ 0xFF#8).toInt < -8192 ∧ 8191 < (0x20#8 ++ 0x00#8).toInt ∧
    bendFits (basis 40000).cfg ((basis 40000).chan 0).origPeriod (-8192) = false ∧ (basis 100).cfg.valid = true := by
  decide +kernel
theorem witness_BendScaleObeysItsLaws :
    tc.valid = true ∧ 65535 < 2 ^ tc.periodW ∧ bendFits tc 65535 8191 = true ∧
    { tc with periodW := 20 }.bendOctaves = tc.bendOctaves ∧ bendFits { tc with periodW := 20 } 65535 8191 = true ∧
    bendFits tc 65535 (-8192) = false := by decide +kernel
theorem witness_BendsDoNotDrift :
    0 < (basis 65535).cfg.nch ∧ ((basis 65535).chan 0).origPeriod < 2 ^ (basis 65535).cfg.periodW ∧
    0 < (basis 100).lanes.length ∧ ((basis 100).modifyChan 0 fun ch => { ch with curPeriod := 70 }).lanes.length = 2 ∧
    (((basis 100).modifyChan 0 fun ch => { ch with curPeriod := 70 }).chan 0).origPeriod =
      ((basis 100).chan 0).origPeriod ∧
    bendDefined (basis 100).cfg ((basis 100).chan 0).origPeriod (0x10#8 ++ 0x00#8).toInt = true ∧
    runs (exec (.devBendPitch 0 [0x10, 0]) (basis 100)) = true ∧
    runs (exec (.devBendPitch 0 [0x10, 0, 7]) ((basis 100).modifyChan 0 fun ch => { ch with curPeriod := 70 })) = true := by
  decide +kernel
theorem witness_BendNeverStartsANote :
    1 < s0.cfg.nch ∧ 1 < s0.lanes.length ∧ (s0.chan 1).origPeriod = 0 ∧ deflectionOk (0xE0#8 ++ 0x00#8).toInt = true ∧
    deflectionOk (0x1F#8 ++ 0xFF#8).toInt = true := by decide
theorem witness_SetMovementSelectsTheBounds :
    1 < s0.cfg.nch ∧ (1 : Byte) ≠ 0 ∧ (255 : Byte) ≠ 0 ∧ s0.cfg.valid = true := by decide +kernel
theorem witness_StepTurnsAtTheBoundsAndToggles :
    (lane 3 3 0 4 .forward false).ch.maxPos ≤ (lane 3 3 0 4 .forward false).ch.position ∧
    (lane 3 3 0 0 .reverse false).ch.position < (lane 3 3 0 0 .reverse false).ch.maxPos ∧
    (lane 3 3 0 0 .reverse false).ch.position ≤ (lane 3 3 0 0 .reverse false).ch.minPos ∧
    (lane 3 3 0 1 .reverse false).ch.minPos < (lane 3 3 0 1 .reverse false).ch.position ∧
    (lane 3 3 0 3 .reverse false).ch.position < (lane 3 3 0 3 .reverse false).ch.maxPos := by decide

/-- Channel 0 silent, channel 1 playing at the given count under period 3. -/
def counting (el : Nat) : State :=
  { s0 with lanes := [lane 0 0 7 2 .forward true, lane 3 3 el 4 .forward false] }

theorem witness_TickCountsComparesAndSteps :
    s0.powered = true ∧ (lane 0 0 7 2 .forward true).ch.curPeriod = 0 ∧
    (counting 1).lanes[1]? = some (lane 3 3 1 4 .forward false) ∧ (3 : Nat) ≠ 0 ∧ 1 + 1 < 3 ∧
    stepDue (lane 3 3 2 4 .forward false) ∧ stepDue (lane 3 3 50 4 .forward false) := by decide
theorem witness_TickDrivesTheBackend :
    s0.powered = true ∧ s0.cfg.backend = .directPin ∧ (playing tcShift).cfg.backend = .shiftRegister ∧
    (∃ l ∈ (playing tcShift).lanes, stepDue l) ∧ (∀ l ∈ (on tcShift).lanes, ¬ stepDue l) ∧
    (playing tcBridge).cfg.backend = .hBridge := by
  refine ⟨by decide, by decide, by decide, ⟨lane 2 2 1 3 .forward true, by decide, by decide⟩, by decide, by decide⟩
theorem witness_SilentChannelsNeverAdvance :
    (counting 1).lanes[0]? = some (lane 0 0 7 2 .forward true) ∧ (lane 0 0 7 2 .forward true).ch.curPeriod = 0 ∧
    ∀ l ∈ s0.lanes, l.ch.curPeriod = 0 := by decide
theorem witness_NextStepComesWhenTheCountReachesThePeriod :
    (counting 1).lanes[1]? = some (lane 3 3 1 4 .forward false) ∧ 0 < (lane 3 3 1 4 .forward false).ch.curPeriod ∧
    1 < max 1 (3 - 1) ∧ (counting 50).lanes[1]? = some (lane 3 3 50 4 .forward false) ∧ 0 < max 1 (3 - 50) := by decide
theorem witness_TickRestoresTheRecordInvariants :
    (counting 50).lanes[1]? = some (lane 3 3 50 4 .forward false) ∧
    (tick (counting 50)).lanes[1]? = some (lane 3 3 0 3 .reverse true) ∧ 0 < 3 ∧ 3 ≤ 50 ∧
    (counting 3).lanes[1]? = some (lane 3 3 3 4 .forward false) ∧
    (tick (counting 3)).lanes[1]? = some (lane 3 3 0 3 .reverse true) ∧
    (lane 3 3 50 4 .forward false).ch.minPos ≤ 4 ∧ (4 : Int) ≤ (lane 3 3 50 4 .forward false).ch.maxPos ∧
    (lane 3 3 50 4 .forward false).ch.minPos < (lane 3 3 50 4 .forward false).ch.maxPos ∧
    (counting 50).lanes[0]? = some (lane 0 0 7 2 .forward true) ∧
    (tick (counting 50)).lanes[0]? = some (lane 0 0 7 2 .forward true) := by decide
theorem witness_PositionWalksBackToTheBounds :
    (lane 3 3 0 4 .forward false).ch.position = (lane 3 3 0 4 .forward false).ch.maxPos + (0 : Nat) ∧
    (lane 3 3 0 10 .forward false).ch.position = (lane 3 3 0 10 .forward false).ch.maxPos + (6 : Nat) ∧
    (lane 3 3 0 (-1) .reverse false).ch.position = (lane 3 3 0 (-1) .reverse false).ch.minPos - (1 : Nat) ∧
    (lane 3 3 0 (-1) .reverse false).ch.minPos < (lane 3 3 0 (-1) .reverse false).ch.maxPos := by decide
theorem witness_LanesAreIndependentInATick :
    (counting 50).cfg = (counting 1).cfg ∧ (counting 50).lanes[0]? = (counting 1).lanes[0]? ∧
    (counting 50).lanes ≠ (counting 1).lanes := by decide +kernel
theorem witness_HomeBeginSilencesAndReverses :
    selectionOk (playing tc).cfg [0, 1] = true ∧ selectionOk (playing tc).cfg [1] = true ∧
    selectionOk (playing tcShift).cfg [0] = true := by decide
theorem witness_HomeBeatTogglesTheDrivenChannels :
    (homing tcBridge 0).cfg.backend = .hBridge ∧
    (homing tc 3).powered = true ∧ (homing tc 3).mode = .homing ∧
    (homing tc 3).homeCnt < homeBeats (homing tc 3).cfg (homing tc 3).homeSel ∧
    (homing tc 3).lanes[1]? = some (lane 0 0 1 3 .reverse true) ∧ 1 ∈ (homing tc 3).homeSel ∧
    (homing tc 3).homeCnt + 1 ≤ (homing tc 3).cfg.homeTransitions.getD 1 0 ∧ 0 ∉ (homing tc 3).homeSel ∧
    ({ tc with homeTransitions := [4, 2] }.homeTransitions.getD 1 0 < 2 + 1 ∧
      2 < homeBeats { tc with homeTransitions := [4, 2] } [0, 1]) ∧
    (homing tcShift 0).cfg.backend = .shiftRegister ∧ (1 ∈ (homing tcShift 0).homeSel ∧
      1 < (homing tcShift 0).lanes.length ∧ (homing tcShift 0).homeCnt + 1 ≤ tcShift.homeTransitions.getD 1 0) := by decide
theorem witness_HomeEndSetsTheReadyState :
    (homing tc 4).powered = true ∧ (homing tc 4).mode = .homing ∧
    (homing tc 4).homeCnt = homeBeats (homing tc 4).cfg (homing tc 4).homeSel := by decide
theorem witness_ExactlyOneHomingMemberIsEnabled :
    (homing tc 0).powered = true ∧ (homing tc 0).mode = .homing ∧
    (homing tc 4).homeCnt ≤ homeBeats (homing tc 4).cfg (homing tc 4).homeSel ∧
    homeBeatEnabled (homing tc 3) = true ∧ homeEndEnabled (homing tc 4) = true ∧ s0.mode = .run := by decide
theorem witness_ResetSequenceReachesTheReadyState :
    (playing tc).powered = true ∧ selectionOk (playing tc).cfg [1] = true ∧
    [false, true, true, false, true, true].count true = homeBeats (playing tc).cfg [1] ∧
    [false, true, true, false, true, true][5]? = some true ∧
    (playing tc).lanes[1]? = some (lane 2 2 1 3 .forward true) ∧ (0 ∉ ([1] : List Nat)) ∧ (1 ∈ ([1] : List Nat)) ∧
    (homingRun (homeBegin [1] (playing tc)) []).lanes[1]? = some (lane 0 0 1 3 .reverse true) ∧
    (playing tc).cfg.backend = .directPin ∧ (playing tcBridge).cfg.backend = .hBridge ∧
    selectionOk (playing tcBridge).cfg [1] = true := by decide
theorem witness_SeekTakesOnlyTheMarker :
    s0.powered = true ∧ s0.mode = .run ∧ s0.pstate = .seek ∧ (0x4D : Byte) = s0.cfg.startMarker ∧
    (0x4C : Byte) ≠ s0.cfg.startMarker := by decide
theorem witness_TargetTakesSystemAndOwnAddress :
    (parsing .target 0 0).powered = true ∧ (parsing .target 0 0).mode = .run ∧ (parsing .target 0 0).pstate = .target ∧
    (1 : Byte) = (parsing .target 0 0).cfg.deviceAddress ∧ (2 : Byte) ≠ 0x00#8 ∧
    (2 : Byte) ≠ (parsing .target 0 0).cfg.deviceAddress := by decide
theorem witness_SubTakesBroadcastAndRange :
    (parsing .sub 0 0).powered = true ∧ (parsing .sub 0 0).mode = .run ∧ (parsing .sub 0 0).pstate = .sub ∧
    (tc.minSub.toNat ≤ (1#8).toNat ∧ (2#8).toNat ≤ tc.maxSub.toNat) ∧ (3#8 : Byte) ≠ 0x00#8 ∧
    tc.maxSub.toNat < (3#8).toNat ∧ (1#8).toNat < { tc with minSub := 2#8 }.minSub.toNat := by decide
theorem witness_LenStartsTheBodyOrEndsTheFrame :
    (parsing .len 0 0).powered = true ∧ (parsing .len 0 0).mode = .run ∧ (parsing .len 0 0).pstate = .len ∧
    (255 : Byte) ≠ 0 ∧ targetAccepted tc (parsing .len 0 0).fTarget = true ∧
    subAccepted tc (parsing .len 0 0).fSub = true := by decide
theorem witness_BodyCollectsAndHandsOff :
    (parsing .body 255 253).powered = true ∧ (parsing .body 255 253).mode = .run ∧
    (parsing .body 255 253).pstate = .body ∧ (parsing .body 255 253).fCnt + 1 ≠ (parsing .body 255 253).fLen ∧
    (parsing .body 1 0).fCnt + 1 = (parsing .body 1 0).fLen ∧
    decodeMessage tc (messageOf (parsing .body 1 0).fTarget (parsing .body 1 0).fSub
      (((parsing .body 1 0).fBody.set (parsing .body 1 0).fCnt.toNat 8).take (parsing .body 1 0).fLen.toNat)) =
      .ok (.devNoteOff 0 []) := by decide
theorem witness_ParserWritesNoChannelRegister :
    rxEnabled s0 = true ∧ (parseByte 7 s0).2 = false ∧ rxEnabled (parsing .body 1 0) = true ∧
    (parseByte 8 (parsing .body 1 0)).2 = true ∧ (parseByte 0 (parsing .len 9 9)).2 = true := by decide
theorem witness_FrameBytesRunTheirCommand :
    s0.cfg.valid = true ∧ s0.powered = true ∧ s0.mode = .run ∧ s0.pstate = .seek ∧ s0.fBody.length = 255 ∧
    wellFormed s0.cfg (.devNoteOn 1 (List.replicate 254 60)) = true ∧
    encode s0.cfg (.devNoteOn 1 (List.replicate 254 60)) = some (frameBytes s0.cfg 1 2 (9 :: List.replicate 254 60)) ∧
    wellFormed s0.cfg (.empty 0 2) = true ∧ encode s0.cfg (.empty 0 2) = some (frameBytes s0.cfg 0 2 []) := by
  decide +kernel
theorem witness_NoiseInSeekIsSkipped :
    s0.powered = true ∧ s0.mode = .run ∧ s0.pstate = .seek ∧ s0.cfg.startMarker ∉ ([0x00, 0xFF] : List Byte) := by decide
theorem witness_DecodeInvertsEncode :
    tc.valid = true ∧ wellFormed tc (.devBendPitch 1 [0xE0, 0]) = true ∧
    encode tc (.devBendPitch 1 [0xE0, 0]) = some [0x4D, 1, 2, 3, 0x0E, 0xE0, 0] := by decide +kernel
theorem witness_EncodeInvertsDecode :
    tc.valid = true ∧ decode tc [0x4D, 0, 2, 2, 0x09, 0x3C, 0x4D] = .ok (.sysFallback 2 0x09 [0x3C], [0x4D]) := by
  decide +kernel
theorem witness_DispatchIsTotal :
    s0.cfg.valid = true ∧ targetAccepted s0.cfg 1 = true ∧ subAccepted s0.cfg 2 = true := by decide +kernel
theorem witness_BackendCallsFollowTheSummary :
    tc.backend = .directPin ∧ tcShift.backend = .shiftRegister ∧ tcBridge.backend = .hBridge ∧
    (lane 3 3 0 0 .reverse false).ch.dir = .reverse ∧ Dir.forward ≠ (lane 3 3 0 0 .reverse false).ch.dir ∧
    (on tcShift).cfg.backend = .shiftRegister ∧ s0.cfg.backend ≠ .shiftRegister := by decide
theorem witness_PackedBitIsTheChannelsOutput :
    (playing tc).lanes[1]? = some (lane 2 2 1 3 .forward true) ∧ (playing tc).lanes.length ≤ 2 := by decide

/-- A two-channel claim about pins, from each channel. -/
theorem pinsFollow_two {s : State} {l0 l1 : Lane} (hs : s.lanes = [l0, l1])
    (h0 : pinLevel (.step 0) s.trace = l0.ch.out ∧ pinLevel (.dir 0) s.trace = l0.ch.dir.level)
    (h1 : pinLevel (.step 1) s.trace = l1.ch.out ∧ pinLevel (.dir 1) s.trace = l1.ch.dir.level) : PinsFollow s := by
  intro c l h
  rw [hs] at h
  match c with
  | 0 => cases h; exact h0
  | 1 => cases h; exact h1
  | k + 2 => simp at h

/-- A two-channel claim about bridges, from each channel. -/
theorem bridgeFollows_two {s : State} {l0 l1 : Lane} (hs : s.lanes = [l0, l1])
    (h0 : (bridgeLevel 0 s.trace = 0 ∧ l0.phase = 0) ∨ bridgeLevel 0 s.trace = tableRead s.cfg l0.phase)
    (h1 : (bridgeLevel 1 s.trace = 0 ∧ l1.phase = 0) ∨ bridgeLevel 1 s.trace = tableRead s.cfg l1.phase) :
    BridgeFollows s := by
  intro c l h
  rw [hs] at h
  match c with
  | 0 => cases h; exact h0
  | 1 => cases h; exact h1
  | k + 2 => simp at h

/-- Channel 0 with its bridge still at 0, channel 1 at the entry of phase 1, a TICK next in which channel 1 steps. -/
def bridged : State :=
  { playing tcBridge with
    lanes := [lane 3 3 1 2 .forward false, { lane 2 2 1 3 .forward true with phase := 1 }]
    trace := [.bridgeWrite 1 0b0110]
    schedule := [.tick] }

theorem witness_PinsFollowTheRegisters :
    { playing tc with schedule := [.tick] }.cfg.backend = .directPin ∧
    PinsFollow { playing tc with schedule := [.tick] } ∧ runs (step { playing tc with schedule := [.tick] }) = true ∧
    bridged.cfg.backend = .hBridge ∧ BridgeFollows bridged ∧ runs (step bridged) = true ∧
    sees (fun s => (bridgeLevel 0 s.trace, bridgeLevel 1 s.trace)) (step bridged) = some (0, 0b0101) :=
  ⟨by decide, pinsFollow_two rfl (by decide) (by decide), by decide, by decide,
    bridgeFollows_two rfl (.inl (by decide)) (.inr (by decide)), by decide, by decide⟩
theorem witness_LatchFollowsTheOutputs :
    { playing tcShift with schedule := [.tick] }.cfg.backend = .shiftRegister ∧
    LatchFollows { playing tcShift with schedule := [.tick] } ∧
    runs (step { playing tcShift with schedule := [.tick] }) = true := by
  refine ⟨by decide, ⟨by decide, by decide⟩, by decide⟩
theorem witness_CoreIsBackendAgnostic :
    { playing tc with schedule := [.tick] }.core = { playing tcBridge with schedule := [.tick], trace := [] }.core ∧
    runs (step { playing tc with schedule := [.tick] }) = true ∧
    runs (step { playing tcBridge with schedule := [.tick], trace := [] }) = true := ⟨rfl, by decide, by decide⟩
theorem witness_ConfigurationIsNeverWritten :
    runs (exec .tick (playing tc)) = true ∧ runs (step { playing tc with schedule := [.host 7] }) = true := by decide
theorem witness_EachRegisterHasItsWriters :
    runs (exec (.devSetMovement 0 [1]) (playing tc)) = true ∧
    sees bounds (exec (.devSetMovement 0 [1]) (playing tc)) ≠ some (bounds (playing tc)) ∧
    sees regs (exec .tick (playing tc)) ≠ some (regs (playing tc)) ∧
    sees flags (exec .homeBeat (homing tc 0)) ≠ some (flags (homing tc 0)) ∧
    (∀ b, Instr.tick ≠ .rxByte b) ∧ Instr.tick ≠ .powerOn :=
  ⟨by decide, by decide, by decide, by decide, nofun, nofun⟩
theorem witness_ChannelsFollowTheLifecycle :
    (playing tc).Inv ∧ (playing tc).life 1 = .playing ∧ beforeReset.Inv ∧ beforeReset.life 1 ≠ .homing ∧
    sees (·.life 1) (step beforeReset) = some .homing ∧ (homing tc 4).Inv ∧ (homing tc 4).life 1 = .homing ∧
    sees (·.life 1) (step (homing tc 4)) = some .idle ∧ 1 < (homing tc 4).cfg.nch ∧ (homing tc 4).powered = true :=
  ⟨playing_inv, by decide, beforeReset_inv, by decide, by decide, homing_inv 4 (le_refl 4), by decide, by decide,
    by decide, by decide⟩
theorem witness_StepRunsTheDecodedCommand :
    beforeReset.powered = true ∧ beforeReset.schedule = [.main] ∧ beforeReset.mode = .run ∧
    beforeReset.rxQueue = [0xFF] ∧ beforeReset.pstate = .body ∧ beforeReset.fCnt + 1 = beforeReset.fLen ∧
    decodeMessage beforeReset.cfg (messageOf beforeReset.fTarget beforeReset.fSub
      ((beforeReset.fBody.set beforeReset.fCnt.toNat 0xFF).take beforeReset.fLen.toNat)) = .ok (.sysReset 0 []) := by
  decide
theorem witness_StepGivesEachAgentItsTurn :
    State.reset.powered = false ∧ s0.powered = true ∧ { s0 with schedule := [.tick] }.schedule = [.tick] ∧
    { s0 with schedule := [.main] }.mode = .run ∧ s0.rxQueue = [] ∧ beforeReset.rxQueue = [0xFF] ∧
    (homing tc 0).schedule = [.main] ∧ (homing tc 0).mode = .homing ∧ s0.schedule = [] := by decide
theorem witness_InvariantHoldsInitially : tc.valid = true := test_tc_valid
theorem witness_StepKeepsTheInvariant :
    beforeReset.Inv ∧ runs (step beforeReset) = true ∧ (homing tc 0).Inv ∧ runs (step (homing tc 0)) = true ∧
    { playing tcShift with schedule := [.tick] }.Inv ∧ runs (step { playing tcShift with schedule := [.tick] }) = true ∧
    tcShift.backend = .shiftRegister :=
  ⟨beforeReset_inv, by decide, homing_inv 0 (by decide), by decide, playingShift_inv, by decide, rfl⟩
theorem witness_BlockNeverHalts : (playing tc).Inv ∧ (homing tc 4).Inv := ⟨playing_inv, homing_inv 4 (le_refl 4)⟩

end Sys2Proof.Tests
end

/-! PROOF. O6: the liveness reply is a frame a unit reads as PONG, and it is the only thing any operation sends (R95). -/

namespace Sys2Proof

/-- A frame decodes to what its Message decodes to, and the bytes after the frame are left over (R90 to R94). -/
theorem decode_frameBytes_append {cfg : Config} {target sub : Byte} {body : List Byte} {i : Instr}
    (ht : targetAccepted cfg target = true) (hs : subAccepted cfg sub = true) (hl : body.length ≤ 255)
    (hm : decodeMessage cfg (messageOf target sub body) = .ok i) (rest : List Byte) :
    decode cfg (frameBytes cfg target sub body ++ rest) = .ok (i, rest) := by
  have hlen : (BitVec.ofNat 8 body.length).toNat = body.length := by
    rw [BitVec.toNat_ofNat, Nat.mod_eq_of_lt (by omega)]
  simp [decode, frameBytes, ht, hs, hlen, hm]

/-- The system opcodes are distinct (R97), so PONG's command byte is no other command's. -/
theorem decodeSystem_opcSysPong {cfg : Config} (hv : cfg.valid = true) (sub : Byte) (payload : List Byte) :
    decodeSystem cfg sub cfg.opcSysPong payload = .sysPong sub payload := by
  have hd := Config.systemOpcodes_nodup hv
  simp only [Config.systemOpcodes, List.nodup_cons, List.mem_cons, not_or] at hd
  obtain ⟨⟨hping, -⟩, ⟨hreset, hstart, hstop, -⟩, -⟩ := hd
  simp [decodeSystem, Ne.symm hping, hreset, hstart, hstop]

namespace Machine

/-- R95: the reply laid out as a frame of the system space. -/
theorem livenessReply_eq_frameBytes (cfg : Config) :
    livenessReply cfg = frameBytes cfg systemAddress 0 [cfg.opcSysPong, cfg.deviceAddress, cfg.minSub, cfg.maxSub] := rfl

/-- A unit reads the reply as PONG with the sender's address and range as payload (R95, R146). -/
theorem decode_livenessReply {cfg : Config} (hv : cfg.valid = true) :
    decode cfg (livenessReply cfg) = .ok (.sysPong 0 [cfg.deviceAddress, cfg.minSub, cfg.maxSub], []) := by
  have hs : subAccepted cfg 0 = true := rfl
  have hm : decodeMessage cfg
      (messageOf systemAddress 0 [cfg.opcSysPong, cfg.deviceAddress, cfg.minSub, cfg.maxSub]) =
        .ok (.sysPong 0 [cfg.deviceAddress, cfg.minSub, cfg.maxSub]) := by
    rw [← decodeSystem_opcSysPong hv]
    exact decodeMessage_system hs ..
  rw [livenessReply_eq_frameBytes, ← List.append_nil (frameBytes ..)]
  exact decode_frameBytes_append (by simp [targetAccepted]) hs (by simp) hm []

/-- The work on a lane drives pins and bridges only: it sends no bytes, whatever the lane. -/
def SendsNothing (f : Nat → Lane → LaneResult) : Prop :=
  ∀ (c : Nat) (l : Lane) (bytes : List Byte), .txBytes bytes ∉ (f c l).outs

theorem txBytes_notMem_dirPinWrites (c : Nat) (level now : Dir) (bytes : List Byte) :
    .txBytes bytes ∉ dirPinWrites c level now := by
  unfold dirPinWrites
  split <;> simp

theorem txBytes_notMem_dirUpdate (cfg : Config) (c : Nat) (level now : Dir) (bytes : List Byte) :
    .txBytes bytes ∉ dirUpdate cfg c level now := by
  unfold dirUpdate
  split <;> simp [txBytes_notMem_dirPinWrites]

theorem txBytes_notMem_applyLane (cfg : Config) (c : Nat) (level : Dir) (l : Lane) (bytes : List Byte) :
    .txBytes bytes ∉ (applyLane cfg c level l).outs := by
  unfold applyLane
  split <;> simp [txBytes_notMem_dirPinWrites]

theorem homeBeginLane_sendsNothing (cfg : Config) (sel : List Nat) : SendsNothing (homeBeginLane cfg sel) := by
  intro c l bytes
  unfold homeBeginLane
  split <;> simp [txBytes_notMem_dirUpdate]

theorem homeBeatLane_sendsNothing (cfg : Config) (sel : List Nat) (cnt : Nat) :
    SendsNothing (homeBeatLane cfg sel cnt) := by
  intro c l bytes
  unfold homeBeatLane
  split <;> simp [txBytes_notMem_applyLane]

theorem homeEndLane_sendsNothing (cfg : Config) (sel : List Nat) : SendsNothing (homeEndLane cfg sel) := by
  intro c l bytes
  unfold homeEndLane
  split <;> simp [txBytes_notMem_dirUpdate]

theorem tickLane_sendsNothing (cfg : Config) : SendsNothing (tickLane cfg) := by
  intro c l bytes
  unfold tickLane
  split
  · simp
  · split <;> simp [stepLane, txBytes_notMem_applyLane]

/-- If no lane sends anything, neither does the operation over all lanes. -/
theorem SendsNothing.mem_overLanes_trace {f : Nat → Lane → LaneResult} (hf : SendsNothing f) (s : State)
    (bytes : List Byte) : .txBytes bytes ∈ (s.overLanes f).trace ↔ .txBytes bytes ∈ s.trace := by
  simp only [State.overLanes_trace, List.mem_append, or_iff_left_iff_imp, List.mem_flatten, List.mem_mapIdx]
  rintro ⟨_, ⟨c, hc, rfl⟩, hmem⟩
  exact absurd hmem (hf c _ bytes)

/-- `commit_batch()` writes the shift register, not the transport (R229). -/
theorem txBytes_mem_commitBatch_trace (s : State) (bytes : List Byte) :
    .txBytes bytes ∈ (commitBatch s).trace ↔ .txBytes bytes ∈ s.trace := by
  obtain ⟨-, -, htrace⟩ | ⟨-, hsame⟩ := commitBatch_cases s
  · simp [htrace]
  · rw [hsame]

theorem SendsNothing.mem_overLanesThenCommit_trace {f : Nat → Lane → LaneResult} (hf : SendsNothing f) (s : State)
    (bytes : List Byte) : .txBytes bytes ∈ (s.overLanesThenCommit f).trace ↔ .txBytes bytes ∈ s.trace := by
  unfold State.overLanesThenCommit
  split
  · rw [txBytes_mem_commitBatch_trace, hf.mem_overLanes_trace]
  · exact hf.mem_overLanes_trace s bytes

/-! The operations that send nothing: their traces hold the same bytes sent as before them. -/

theorem txBytes_mem_homeBegin_trace (sel : List Nat) (s : State) (bytes : List Byte) :
    .txBytes bytes ∈ (homeBegin sel s).trace ↔ .txBytes bytes ∈ s.trace :=
  (homeBeginLane_sendsNothing s.cfg sel).mem_overLanes_trace s bytes

theorem txBytes_mem_homeBeat_trace (s : State) (bytes : List Byte) :
    .txBytes bytes ∈ (homeBeat s).trace ↔ .txBytes bytes ∈ s.trace :=
  (homeBeatLane_sendsNothing s.cfg s.homeSel (s.homeCnt + 1)).mem_overLanesThenCommit_trace
    { s with homeCnt := s.homeCnt + 1 } bytes

theorem txBytes_mem_homeEnd_trace (s : State) (bytes : List Byte) :
    .txBytes bytes ∈ (homeEnd s).trace ↔ .txBytes bytes ∈ s.trace :=
  (homeEndLane_sendsNothing s.cfg s.homeSel).mem_overLanes_trace s bytes

theorem txBytes_mem_tick_trace (s : State) (bytes : List Byte) :
    .txBytes bytes ∈ (tick s).trace ↔ .txBytes bytes ∈ s.trace :=
  (tickLane_sendsNothing s.cfg).mem_overLanesThenCommit_trace s bytes

theorem txBytes_mem_powerOnCommit_trace (s : State) (bytes : List Byte) :
    .txBytes bytes ∈ (powerOnCommit s).trace ↔ .txBytes bytes ∈ s.trace := by
  unfold powerOnCommit
  split <;> simp

/-- POWER_ON starts a new trace and sends nothing (R280 to R282). -/
theorem txBytes_notMem_powerOn_trace (s : State) (bytes : List Byte) : .txBytes bytes ∉ (powerOn s).trace := by
  have hcommit : .txBytes bytes ∉ (powerOnCommit (powerOnRegisters s)).trace := by
    simp [txBytes_mem_powerOnCommit_trace]
  simp only [powerOn]
  split
  · rwa [txBytes_mem_homeBegin_trace]
  · exact hcommit

/-- "It writes the partial-frame registers and nothing else" (R131): the parser's work leaves the configuration and the
trace. -/
theorem parseByte_cfg_trace (b : Byte) (s : State) :
    (parseByte b s).1.cfg = s.cfg ∧ (parseByte b s).1.trace = s.trace := by
  unfold parseByte rxSeek rxTarget rxSub rxLen rxBody
  split
  case h_1 | h_2 | h_3 => split <;> exact ⟨rfl, rfl⟩
  case h_4 | h_5 => exact ⟨rfl, rfl⟩

/-- A command sends the liveness reply or nothing: of its effects only PING's adds bytes sent (R95, R129). -/
theorem CommandEffect.txBytes_mem_trace {s t : State} (h : CommandEffect s t) {bytes : List Byte}
    (ht : .txBytes bytes ∈ t.trace) : .txBytes bytes ∈ s.trace ∨ bytes = livenessReply s.cfg := by
  cases h with
  | reply => simpa using ht
  | home sel => exact .inl ((txBytes_mem_homeBegin_trace sel s bytes).mp ht)
  | none | stop | note | off | bend | draw | full | constrained => exact .inl ht

/-- A received byte sends the reply at most: the parser's work sends nothing, the command it completes the reply or
nothing (R126). -/
theorem execRxByte_txBytes_mem_trace {b : Byte} {s t : State} (h : exec (.rxByte b) s = .next t) {bytes : List Byte}
    (ht : .txBytes bytes ∈ t.trace) : .txBytes bytes ∈ s.trace ∨ bytes = livenessReply s.cfg := by
  obtain ⟨hcfg, htrace⟩ := parseByte_cfg_trace b s
  obtain ⟨-, rfl⟩ | ⟨-, -, rfl⟩ | ⟨-, -, _, -, -, -, effect⟩ := execRxByte_cases h
  · exact .inl ht
  · exact .inl (htrace ▸ ht)
  · simpa only [hcfg, htrace] using effect.txBytes_mem_trace ht

/-- "The only bytes the unit ever sends" (R95), operation by operation. -/
theorem exec_txBytes_mem_trace {i : Instr} {s t : State} (h : exec i s = .next t) {bytes : List Byte}
    (ht : .txBytes bytes ∈ t.trace) : .txBytes bytes ∈ s.trace ∨ bytes = livenessReply s.cfg := by
  cases i with
  | rxByte b => exact execRxByte_txBytes_mem_trace h ht
  | tick =>
    simp only [exec, execTick] at h
    split at h <;> cases h
    · exact .inl ((txBytes_mem_tick_trace s bytes).mp ht)
    · exact .inl ht
  | homeBegin sel =>
    simp only [exec, execHomeBegin] at h
    split at h <;> cases h
    exact .inl ((txBytes_mem_homeBegin_trace sel s bytes).mp ht)
  | homeBeat =>
    simp only [exec, execHomeBeat] at h
    split at h <;> cases h
    · exact .inl ((txBytes_mem_homeBeat_trace s bytes).mp ht)
    · exact .inl ht
  | homeEnd =>
    simp only [exec, execHomeEnd] at h
    split at h <;> cases h
    · exact .inl ((txBytes_mem_homeEnd_trace s bytes).mp ht)
    · exact .inl ht
  | powerOn =>
    simp only [exec, execPowerOn] at h
    split at h
    · cases h
      exact .inl ht
    · split at h <;> cases h
      exact absurd ht (txBytes_notMem_powerOn_trace s bytes)
  | _ => exact (exec_command_effect rfl h).txBytes_mem_trace ht

/-- Settles O6: the reply's bytes by definition, their reading from the frame's decoding, and the rest from what each
operation can add to the trace. -/
theorem theOnlyReplyIsTheLivenessFrame : Obligations.TheOnlyReplyIsTheLivenessFrame :=
  ⟨fun _ => rfl, fun _ hv => decode_livenessReply hv, fun _ _ _ _ h ht => exec_txBytes_mem_trace h ht⟩

end Machine

end Sys2Proof

/-! PROOF. O5, O36 to O41: what the parser takes in each of its five states (R121 to R125), that it writes its own
registers only and acts through the hand-off alone (R126, R131), and the one command the ingress answers itself (R129). -/

namespace Sys2Proof

theorem targetAccepted_iff (cfg : Config) (b : Byte) :
    targetAccepted cfg b = true ↔ b = systemAddress ∨ b = cfg.deviceAddress := by
  simp [targetAccepted]

theorem subAccepted_iff (cfg : Config) (b : Byte) :
    subAccepted cfg b = true ↔ b = 0 ∨ (cfg.minSub.toNat ≤ b.toNat ∧ b.toNat ≤ cfg.maxSub.toNat) := by
  simp [subAccepted]

/-- The Message of an empty body is the empty Message of either target (R93, R141). -/
theorem decodeMessage_messageOf_nil {cfg : Config} {target sub : Byte} (ht : targetAccepted cfg target = true)
    (hs : subAccepted cfg sub = true) : decodeMessage cfg (messageOf target sub []) = .ok (.empty target sub) := by
  simp [decodeMessage, messageOf, ht, hs]

/-- PING is the first command of the system space (R126, R140). -/
theorem decodeSystem_opcSysPing (cfg : Config) (sub : Byte) (payload : List Byte) :
    decodeSystem cfg sub cfg.opcSysPing payload = .sysPing sub payload :=
  if_pos rfl

/-- The device space names no PING (R97). -/
theorem decodeDevice_ne_sysPing (cfg : Config) (c : Nat) (op sub : Byte) (payload payload' : List Byte) :
    decodeDevice cfg c op payload ≠ .sysPing sub payload' := by
  unfold decodeDevice
  repeat' split
  all_goals exact nofun

/-- Only a Message to the system address is a PING (R96, R129). -/
theorem target_eq_system_of_decodeMessage_sysPing {cfg : Config} {m : Message} {sub op : Byte} {payload : List Byte}
    (hop : m.command = some op) (h : decodeMessage cfg m = .ok (.sysPing sub payload)) : m.target = systemAddress := by
  obtain ⟨-, -, ⟨hnone, -⟩ | ⟨_, -, ⟨hsys, -⟩ | ⟨-, -, hcast⟩ | ⟨-, -, hdev⟩⟩⟩ := decodeMessage_cases h
  · cases hop ▸ hnone
  · exact hsys
  · cases hcast
  · exact (decodeDevice_ne_sysPing _ _ _ _ _ _ hdev.symm).elim

namespace Machine

theorem rxEnabled_of_run {s : State} (hp : s.powered = true) (hm : s.mode = .run) : rxEnabled s = true := by
  simp [rxEnabled, hp, hm]

/-- A byte that completes no frame: the parser's work is the whole effect (R120, R131). -/
theorem exec_rxByte_of_incomplete {b : Byte} {s t : State} (he : rxEnabled s = true) (hp : parseByte b s = (t, false)) :
    exec (.rxByte b) s = .next t := by
  simp [exec, execRxByte, he, hp]

/-- A byte that completes a frame: the hand-off of the held Message on the state the parser leaves (R126). -/
theorem exec_rxByte_of_complete {b : Byte} {s t : State} (he : rxEnabled s = true) (hp : parseByte b s = (t, true)) :
    exec (.rxByte b) s = handOff (heldMessage t) t := by
  simp [exec, execRxByte, he, hp]

/-! The parser's work, one equation a state (R121 to R125). -/

section parseByte

variable {s : State} (b : Byte)

theorem parseByte_seek (h : s.pstate = .seek) : parseByte b s = (rxSeek b s, false) := by simp [parseByte, h]

theorem parseByte_target (h : s.pstate = .target) : parseByte b s = (rxTarget b s, false) := by simp [parseByte, h]

theorem parseByte_sub (h : s.pstate = .sub) : parseByte b s = (rxSub b s, false) := by simp [parseByte, h]

theorem parseByte_len (h : s.pstate = .len) : parseByte b s = (rxLen b s, decide (b = 0)) := by simp [parseByte, h]

theorem parseByte_body (h : s.pstate = .body) : parseByte b s = (rxBody b s, decide (s.fCnt + 1 = s.fLen)) := by
  simp [parseByte, h]

end parseByte

/-- The registers the parser may write are PSTATE and the partial frame (R131). -/
theorem parseByte_frame (b : Byte) (s : State) :
    (parseByte b s).1 = { s with
      pstate := (parseByte b s).1.pstate, fTarget := (parseByte b s).1.fTarget, fSub := (parseByte b s).1.fSub,
      fLen := (parseByte b s).1.fLen, fCnt := (parseByte b s).1.fCnt, fBody := (parseByte b s).1.fBody } := by
  cases h : s.pstate with
  | seek =>
    rw [parseByte_seek b h]
    unfold rxSeek
    split <;> rfl
  | target =>
    rw [parseByte_target b h]
    unfold rxTarget
    split <;> rfl
  | sub =>
    rw [parseByte_sub b h]
    unfold rxSub
    split <;> rfl
  | len => rw [parseByte_len b h]; rfl
  | body => rw [parseByte_body b h]; rfl

/-! A body byte, before the last one and the last one (R125). -/

theorem rxBody_more {b : Byte} {s : State} (h : s.fCnt + 1 ≠ s.fLen) :
    rxBody b s = { s with fBody := s.fBody.set s.fCnt.toNat b, fCnt := s.fCnt + 1, pstate := .body } := by
  rw [rxBody, if_neg h]

theorem rxBody_last {b : Byte} {s : State} (h : s.fCnt + 1 = s.fLen) :
    rxBody b s = { s with fBody := s.fBody.set s.fCnt.toNat b, fCnt := s.fCnt + 1, pstate := .seek } := by
  rw [rxBody, if_pos h]

/-- Settles O5: the reply is the whole effect of PING, and the decoder names it in the system space only. -/
theorem pingSendsOnlyTheLivenessReply : Obligations.PingSendsOnlyTheLivenessReply := by
  refine ⟨fun _ _ _ => rfl, fun cfg sub payload hs => ?_, fun cfg sub op sub' payload payload' hv h => ?_⟩
  · rw [← decodeSystem_opcSysPing]
    exact decodeMessage_system hs ..
  · exact Config.device_ne_system hv (target_eq_system_of_decodeMessage_sysPing rfl h)

/-- Settles O36, by the two branches of the parser's work in SEEK. -/
theorem seekTakesOnlyTheMarker : Obligations.SeekTakesOnlyTheMarker := by
  intro s b hp hm hs
  have hexec := exec_rxByte_of_incomplete (rxEnabled_of_run hp hm) (parseByte_seek b hs)
  exact ⟨fun hb => by rw [hexec, rxSeek, if_pos hb], fun hb => by rw [hexec, rxSeek, if_neg hb]⟩

/-- Settles O37: the two accepted bytes are those the target check lets through. -/
theorem targetTakesSystemAndOwnAddress : Obligations.TargetTakesSystemAndOwnAddress := by
  intro s b hp hm hs
  have hexec := exec_rxByte_of_incomplete (rxEnabled_of_run hp hm) (parseByte_target b hs)
  refine ⟨fun hb => ?_, fun hsys hown => ?_⟩
  · rw [hexec, rxTarget, if_pos ((targetAccepted_iff s.cfg b).mpr hb)]
  · have hrejected : ¬ targetAccepted s.cfg b = true := fun h =>
      ((targetAccepted_iff s.cfg b).mp h).elim hsys hown
    rw [hexec, rxTarget, if_neg hrejected]

/-- Settles O38: the sub-address check reads the byte and the range, never F_TARGET. -/
theorem subTakesBroadcastAndRange : Obligations.SubTakesBroadcastAndRange := by
  intro s b hp hm hs
  have hexec := exec_rxByte_of_incomplete (rxEnabled_of_run hp hm) (parseByte_sub b hs)
  refine ⟨fun hb => ?_, fun h0 hout => ?_⟩
  · rw [hexec, rxSub, if_pos ((subAccepted_iff s.cfg b).mpr hb)]
  · have hrejected : ¬ subAccepted s.cfg b = true := fun h =>
      ((subAccepted_iff s.cfg b).mp h).elim h0 fun hin => by omega
    rw [hexec, rxSub, if_neg hrejected]

/-- Settles O39: a length of 0 hands off the empty Message, which decodes to the no-op EMPTY. -/
theorem lenStartsTheBodyOrEndsTheFrame : Obligations.LenStartsTheBodyOrEndsTheFrame := by
  intro s b hp hm hs
  have he := rxEnabled_of_run hp hm
  have hparse := parseByte_len b hs
  refine ⟨fun hb => ?_, fun hb ht hsub => ?_⟩
  · rw [decide_eq_false hb] at hparse
    rw [exec_rxByte_of_incomplete he hparse, rxLen, if_neg hb]
  · subst hb
    have hempty : decodeMessage (rxLen 0 s).cfg (heldMessage (rxLen 0 s)) = .ok (.empty s.fTarget s.fSub) :=
      decodeMessage_messageOf_nil ht hsub
    rw [exec_rxByte_of_complete he hparse, handOff_eq_exec hempty]
    rfl

/-- Settles O40: the last byte hands off the held Message, and the hand-off is `exec` of what it decodes to. -/
theorem bodyCollectsAndHandsOff : Obligations.BodyCollectsAndHandsOff := by
  intro s b hp hm hs
  have he := rxEnabled_of_run hp hm
  have hparse := parseByte_body b hs
  refine ⟨fun hmore => ?_, fun hlast i hdecode => ?_⟩
  · rw [rxBody_more hmore, decide_eq_false hmore] at hparse
    exact exec_rxByte_of_incomplete he hparse
  · rw [rxBody_last hlast, decide_eq_true hlast] at hparse
    rw [exec_rxByte_of_complete he hparse]
    exact handOff_eq_exec hdecode

/-- Settles O41, from the parser's frame and the two ways RX_BYTE can go. -/
theorem parserWritesNoChannelRegister : Obligations.ParserWritesNoChannelRegister := fun s b =>
  ⟨parseByte_frame b s, fun he hp => exec_rxByte_of_incomplete he (Prod.ext rfl hp),
    fun he hp => exec_rxByte_of_complete he (Prod.ext rfl hp)⟩

end Machine

end Sys2Proof

/-! PROOF. O7 to O9, O11 to O14, O22, O47: every accepted Message reaches one handler with a channel in range (R140, R148,
R152), a device command touches its own channel alone (R147), and what the short handlers do (R141 to R146, R150, R151). -/

namespace Sys2Proof

/-! The decoder of each space on the opcodes it names and on the rest (R97, R98). -/

section opcodes

variable {cfg : Config}

theorem decodeSystem_opcSysStart (hv : cfg.valid = true) (sub : Byte) (payload : List Byte) :
    decodeSystem cfg sub cfg.opcSysStart payload = .sysStart sub payload := by
  have hd := Config.systemOpcodes_nodup hv
  simp only [Config.systemOpcodes, List.nodup_cons, List.mem_cons, not_or] at hd
  obtain ⟨⟨-, -, hping, -⟩, -, ⟨hreset, -⟩, -⟩ := hd
  simp [decodeSystem, Ne.symm hping, Ne.symm hreset]

theorem decodeSystem_opcSysStop (hv : cfg.valid = true) (sub : Byte) (payload : List Byte) :
    decodeSystem cfg sub cfg.opcSysStop payload = .sysStop sub payload := by
  have hd := Config.systemOpcodes_nodup hv
  simp only [Config.systemOpcodes, List.nodup_cons, List.mem_cons, not_or] at hd
  obtain ⟨⟨-, -, -, hping, -⟩, -, ⟨-, hreset, -⟩, ⟨hstart, -⟩, -⟩ := hd
  simp [decodeSystem, Ne.symm hping, Ne.symm hreset, Ne.symm hstart]

/-- A command byte the system space does not name reaches its fallback (R98, R146). -/
theorem decodeSystem_of_notMem {op : Byte} (hop : op ∉ cfg.systemOpcodes) (sub : Byte) (payload : List Byte) :
    decodeSystem cfg sub op payload = .sysFallback sub op payload := by
  simp only [Config.systemOpcodes, List.mem_cons, not_or] at hop
  obtain ⟨hping, hpong, hreset, hstart, hstop, -⟩ := hop
  simp [decodeSystem, hping, hpong, hreset, hstart, hstop]

theorem decodeDevice_opcDevSetMovement (hv : cfg.valid = true) (c : Nat) (payload : List Byte) :
    decodeDevice cfg c cfg.opcDevSetMovement payload = .devSetMovement c payload := by
  have hd := Config.deviceOpcodes_nodup hv
  simp only [Config.deviceOpcodes, List.nodup_cons, List.mem_cons, not_or] at hd
  obtain ⟨⟨-, -, -, hreset, -⟩, ⟨-, -, hoff, -⟩, ⟨-, hon, -⟩, ⟨hbend, -⟩, -⟩ := hd
  simp [decodeDevice, Ne.symm hreset, Ne.symm hoff, Ne.symm hon, Ne.symm hbend]

end opcodes

/-! What a Message decodes to, by its addresses (R140). -/

/-- A device Message with sub-address 0 is a broadcast (R142). -/
theorem decodeMessage_broadcast {cfg : Config} (hv : cfg.valid = true) (op : Byte) (payload : List Byte) :
    decodeMessage cfg ⟨cfg.deviceAddress, 0, some op, payload⟩ = .ok (.broadcast op payload) := by
  simp [decodeMessage, targetAccepted, subAccepted, Config.device_ne_system hv]

/-- The decoder refuses a Message for its addresses only (R98, R152). -/
theorem exists_decodeMessage_eq_ok {cfg : Config} {m : Message} (ht : targetAccepted cfg m.target = true)
    (hs : subAccepted cfg m.sub = true) : ∃ i, decodeMessage cfg m = .ok i := by
  simp only [decodeMessage, ht, hs, Bool.not_true, Bool.false_eq_true, if_false]
  repeat' split
  all_goals exact ⟨_, rfl⟩

namespace Machine

/-- No command of the system space acts on a channel. -/
theorem deviceChannel_decodeSystem (cfg : Config) (sub op : Byte) (payload : List Byte) :
    deviceChannel (decodeSystem cfg sub op payload) = none := by
  unfold decodeSystem
  repeat' split
  all_goals rfl

/-- Every command of the device space acts on the channel it was decoded for. -/
theorem deviceChannel_decodeDevice (cfg : Config) (c : Nat) (op : Byte) (payload : List Byte) :
    deviceChannel (decodeDevice cfg c op payload) = some c := by
  unfold decodeDevice
  repeat' split
  all_goals rfl

/-- "`0 <= c < NCH` at every handler" (R148): the channel index comes from an accepted sub-address that is no broadcast. -/
theorem deviceChannel_lt_of_decodeMessage {cfg : Config} {m : Message} {i : Instr} (h : decodeMessage cfg m = .ok i)
    {c : Nat} (hc : deviceChannel i = some c) : c < cfg.nch := by
  obtain ⟨-, hs, ⟨-, rfl⟩ | ⟨op, -, ⟨-, rfl⟩ | ⟨-, -, rfl⟩ | ⟨-, h0, rfl⟩⟩⟩ := decodeMessage_cases h
  · cases hc
  · rw [deviceChannel_decodeSystem] at hc
    cases hc
  · cases hc
  · rw [deviceChannel_decodeDevice] at hc
    cases hc
    exact channelOfSub_lt hs h0

/-- Settles O13: the decoder takes the index from an accepted sub-address, and answers an error for any other. -/
theorem onlyChannelsInRangeAreReached : Obligations.OnlyChannelsInRangeAreReached := by
  refine ⟨fun _ _ _ _ _ hd hc => deviceChannel_lt_of_decodeMessage hd hc, fun s m hs => ?_⟩
  cases hd : decodeMessage s.cfg m with
  | ok i =>
    obtain ⟨-, hsub, -⟩ := decodeMessage_cases hd
    rw [hs] at hsub
    cases hsub
  | error e => rw [handOff, hd]

/-- Settles O47: the Message decodes, its channel is in range, and a command for such a channel answers a next state. -/
theorem dispatchIsTotal : Obligations.DispatchIsTotal := by
  intro s m _ ht hs
  obtain ⟨i, hd⟩ := exists_decodeMessage_eq_ok ht hs
  obtain ⟨t, hexec⟩ := exec_command_next (s := s) (decodeMessage_isCommand hd)
    fun _ hc => deviceChannel_lt_of_decodeMessage hd hc
  exact ⟨i, t, hd, (handOff_eq_exec hd).trans hexec, hexec⟩

/-! R147: a device command as a function of its own lane and the registers outside the lanes. -/

/-- `s'` is `s` but for lanes other than lane `c`. -/
def AgreeAt (c : Nat) (s s' : State) : Prop :=
  ∃ lanes : List Lane, s' = { s with lanes := lanes } ∧ lanes[c]? = s.lanes[c]?

/-- `f` writes no lane but lane `c` and reads no lane but lane `c` (R147). -/
structure LocalTo (c : Nat) (f : State → State) : Prop where
  writes : ∀ (s : State) (k : Nat), k ≠ c → (f s).lanes[k]? = s.lanes[k]?
  reads : ∀ {s s' : State}, AgreeAt c s s' → AgreeAt c (f s) (f s')

theorem AgreeAt.cfg_eq {c : Nat} {s s' : State} (h : AgreeAt c s s') : s'.cfg = s.cfg := by
  obtain ⟨_, rfl, -⟩ := h
  rfl

theorem AgreeAt.freeIdx_eq {c : Nat} {s s' : State} (h : AgreeAt c s s') : s'.freeIdx = s.freeIdx := by
  obtain ⟨_, rfl, -⟩ := h
  rfl

theorem AgreeAt.chan_eq {c : Nat} {s s' : State} (h : AgreeAt c s s') : s'.chan c = s.chan c := by
  obtain ⟨_, rfl, hlane⟩ := h
  simp [State.chan, List.getD_eq_getElem?_getD, hlane]

theorem AgreeAt.drawFree {c : Nat} {s s' : State} (h : AgreeAt c s s') : AgreeAt c s.drawFree s'.drawFree := by
  obtain ⟨lanes, rfl, hlane⟩ := h
  exact ⟨lanes, rfl, hlane⟩

theorem AgreeAt.modifyChan {c : Nat} {s s' : State} (h : AgreeAt c s s') (f : Channel → Channel) :
    AgreeAt c (s.modifyChan c f) (s'.modifyChan c f) := by
  obtain ⟨lanes, rfl, hlane⟩ := h
  exact ⟨_, rfl, by simp [hlane]⟩

theorem LocalTo.id (c : Nat) : LocalTo c id := ⟨fun _ _ _ => rfl, fun h => h⟩

theorem modifyChan_getElem?_of_ne {c k : Nat} (hk : k ≠ c) (s : State) (f : Channel → Channel) :
    (s.modifyChan c f).lanes[k]? = s.lanes[k]? := by
  simp [hk.symm]

/-- A write of one record by a rule of the configuration alone. -/
theorem LocalTo.modifyChan (c : Nat) (f : Config → Channel → Channel) :
    LocalTo c fun s => s.modifyChan c (f s.cfg) where
  writes s _ hk := modifyChan_getElem?_of_ne hk s _
  reads h := by
    rw [h.cfg_eq]
    exact h.modifyChan _

/-- A choice between two local writes by the configuration alone. -/
theorem LocalTo.ite {c : Nat} {f g : State → State} (p : Config → Prop) [DecidablePred p] (hf : LocalTo c f)
    (hg : LocalTo c g) : LocalTo c fun s => if p s.cfg then f s else g s where
  writes s k hk := by
    split
    · exact hf.writes s k hk
    · exact hg.writes s k hk
  reads h := by
    rw [h.cfg_eq]
    split
    · exact hf.reads h
    · exact hg.reads h

/-- A bend reads the original period of its own channel, the configuration and the next free value (R166, R170). -/
theorem bendChannel_localTo (c : Nat) (d : Int) : LocalTo c (bendChannel c d) where
  writes s k hk := by
    unfold bendChannel
    split <;> exact modifyChan_getElem?_of_ne hk _ _
  reads h := by
    unfold bendChannel
    rw [h.cfg_eq, h.chan_eq, h.freeIdx_eq]
    split
    · exact h.modifyChan _
    · exact h.drawFree.modifyChan _

/-- Where only index `c` yields anything, the joined result is what index `c` yields. -/
theorem flatten_mapIdx_of_only {α β : Type} {c : Nat} {g : Nat → α → List β} (hg : ∀ k a, k ≠ c → g k a = [])
    (xs : List α) : (xs.mapIdx g).flatten = (xs[c]?.map (g c)).getD [] := by
  induction xs generalizing c g with
  | nil => simp
  | cons x xs ih =>
    rw [List.mapIdx_cons, List.flatten_cons]
    cases c with
    | zero =>
      have hrest : ∀ k ∈ xs.mapIdx fun k => g (k + 1), k = [] := by
        intro k hk
        obtain ⟨j, hj, rfl⟩ := List.mem_mapIdx.mp hk
        exact hg _ _ (Nat.succ_ne_zero j)
      simp [List.flatten_eq_nil_iff.mpr hrest]
    | succ c =>
      have hrest : ∀ k a, k ≠ c → g (k + 1) a = [] := fun k a hk => hg (k + 1) a (by omega)
      rw [hg 0 x (Nat.succ_ne_zero c).symm, ih hrest]
      simp

/-- HOME_BEGIN of one channel works on that lane: the others stand and emit nothing (R200, R203). -/
theorem homeBegin_singleton (c : Nat) (s : State) :
    homeBegin [c] s = { s with
      lanes := s.lanes.modify c fun l => (homeBeginLane s.cfg [c] c l).lane
      trace := s.trace ++ (s.lanes[c]?.map fun l => (homeBeginLane s.cfg [c] c l).outs).getD []
      homeSel := [c], homeCnt := 0, mode := .homing } := by
  have hidle : ∀ (k : Nat) (l : Lane), k ≠ c → homeBeginLane s.cfg [c] k l = LaneResult.idle l :=
    fun k l hk => if_neg (by simpa using hk)
  have hlanes : (s.lanes.mapIdx fun k l => (homeBeginLane s.cfg [c] k l).lane) =
      s.lanes.modify c fun l => (homeBeginLane s.cfg [c] c l).lane := by
    ext1 k
    by_cases hk : k = c
    · simp [hk]
    · simp [hidle k _ hk, Ne.symm hk]
  have houts : (s.lanes.mapIdx fun k l => (homeBeginLane s.cfg [c] k l).outs).flatten =
      (s.lanes[c]?.map fun l => (homeBeginLane s.cfg [c] c l).outs).getD [] :=
    flatten_mapIdx_of_only (fun k l hk => by rw [hidle k l hk, LaneResult.idle_outs]) s.lanes
  rw [homeBegin, State.overLanes, hlanes, houts]

theorem homeBegin_singleton_localTo (c : Nat) : LocalTo c (homeBegin [c]) where
  writes s k hk := by simp [homeBegin_singleton, hk.symm]
  reads h := by
    obtain ⟨lanes, rfl, hlane⟩ := h
    simp only [homeBegin_singleton, hlane]
    exact ⟨_, rfl, by simp [hlane]⟩

/-- A device command refuses a channel that is not there and is otherwise a function local to its channel (R147, R148). -/
theorem exists_localTo_of_deviceChannel {i : Instr} {c : Nat} (hi : deviceChannel i = some c) :
    ∃ f, LocalTo c f ∧ ∀ s, exec i s = onChannel c s (f s) := by
  cases i with
  | devReset => cases hi; exact ⟨_, homeBegin_singleton_localTo c, fun _ => rfl⟩
  | devNoteOff => cases hi; exact ⟨_, .modifyChan c fun _ => silence, fun _ => rfl⟩
  | devNoteOn _ payload =>
    cases hi
    simp only [exec, execDevNoteOn]
    cases noteOperand payload with
    | none => exact ⟨_, .id c, fun _ => rfl⟩
    | some note =>
      exact ⟨_, .ite (romRead · note = 0) (.id c) (.modifyChan c fun cfg ch =>
        { ch with curPeriod := romRead cfg note, origPeriod := romRead cfg note }), fun s => (apply_ite ..).symm⟩
  | devBendPitch _ payload =>
    cases hi
    simp only [exec, execDevBendPitch]
    cases deflectionOperand payload with
    | none => exact ⟨_, .id c, fun _ => rfl⟩
    | some d => exact ⟨_, bendChannel_localTo c d, fun _ => rfl⟩
  | devSetMovement _ payload =>
    cases hi
    simp only [exec, execDevSetMovement]
    match movementOperand payload with
    | none => exact ⟨_, .id c, fun _ => rfl⟩
    | some false =>
      exact ⟨_, .modifyChan c fun cfg ch => { ch with minPos := cfg.fullMin c, maxPos := cfg.fullMaxAt c }, fun _ => rfl⟩
    | some true =>
      exact ⟨_, .modifyChan c fun cfg ch => { ch with minPos := cfg.constrMinAt c, maxPos := cfg.constrMaxAt c },
        fun _ => rfl⟩
  | devSetTargetColor | devFallback => cases hi; exact ⟨_, .id c, fun _ => rfl⟩
  | _ => cases hi

/-- Settles O14, from the local function each device command is. -/
theorem deviceCommandsTouchOneChannel : Obligations.DeviceCommandsTouchOneChannel := by
  intro i c s t hi h
  obtain ⟨f, hf, hexec⟩ := exists_localTo_of_deviceChannel hi
  rw [hexec] at h
  obtain ⟨hc, rfl⟩ := (onChannel_eq_next_iff ..).mp h
  refine ⟨hf.writes s, fun s' hs' hlane => ?_⟩
  have hagree : AgreeAt c s s' := ⟨s'.lanes, hs', hlane⟩
  obtain ⟨lanes, hrest, hlane'⟩ := hf.reads hagree
  have hnext : exec i s' = .next (f s') := by
    rw [hexec, onChannel_eq_next_iff, hagree.cfg_eq]
    exact ⟨hc, rfl⟩
  exact ⟨f s', hnext, by rw [hrest]; exact hlane', by rw [hrest]⟩

/-! The handlers that do little or nothing. -/

/-- Settles O7: the three handlers by definition, their command bytes from the distinct opcodes of the space. -/
theorem startPongAndSystemFallbackAreNoOps : Obligations.StartPongAndSystemFallbackAreNoOps := by
  refine ⟨fun _ _ _ _ => ⟨rfl, rfl, rfl⟩, fun cfg sub op payload hv hs => ⟨?_, ?_, fun hop => ?_⟩⟩
  · rw [decodeMessage_system hs, decodeSystem_opcSysStart hv]
  · rw [decodeMessage_system hs, decodeSystem_opcSysPong hv]
  · rw [decodeMessage_system hs, decodeSystem_of_notMem hop]

/-- Settles O8: a frame with `L = 0` is the frame of the empty body. -/
theorem emptyMessageIsANoOp : Obligations.EmptyMessageIsANoOp :=
  ⟨fun _ _ _ => rfl, fun _ _ _ rest ht hs =>
    decode_frameBytes_append ht hs (Nat.zero_le _) (decodeMessage_messageOf_nil ht hs) rest⟩

/-- Settles O9, by the two values of the parameter. -/
theorem stopSilencesEveryChannelOrNothing : Obligations.StopSilencesEveryChannelOrNothing := by
  refine fun s sub payload => ⟨fun h => ?_, fun h => ?_, fun hv hs => ?_⟩
  · exact if_pos h
  · exact if_neg (by simp [h])
  · rw [decodeMessage_system hs, decodeSystem_opcSysStop hv]

/-- Settles O11, by the command byte and then the policy. -/
theorem broadcastFollowsThePolicy : Obligations.BroadcastFollowsThePolicy := by
  refine fun s op sub payload => ⟨fun hop => if_pos hop, fun hpolicy => ?_, fun hop hpolicy => ?_, rfl,
    fun hv => decodeMessage_broadcast hv op payload⟩
  · by_cases hop : op = s.cfg.opcDevReset
    · exact if_pos hop
    · simp [exec, execBroadcast, execSysReset, hop, hpolicy]
  · simp [exec, execBroadcast, hop, hpolicy]

/-- Settles O12: the five handled command bytes are excluded, which leaves the decoder's last two arms. -/
theorem deviceFallbackAndColourAreNoOps : Obligations.DeviceFallbackAndColourAreNoOps := by
  refine ⟨fun s c op payload hc => ?_, fun cfg c op payload hv hc hreset hoff hon hbend hmove => ?_⟩
  · have hnext : onChannel c s s = .next s := (onChannel_eq_next_iff ..).mpr ⟨hc, rfl⟩
    exact ⟨hnext, hnext⟩
  · rw [decodeMessage_device hv hc, decodeDevice, if_neg hreset, if_neg hoff, if_neg hon, if_neg hbend, if_neg hmove]

/-- Settles O22: each mode byte selects its pair of bounds, and the channel is there. -/
theorem setMovementSelectsTheBounds : Obligations.SetMovementSelectsTheBounds := by
  intro s c rest hc
  have hnext : ∀ t, onChannel c s t = .next t := fun t => (onChannel_eq_next_iff ..).mpr ⟨hc, rfl⟩
  refine ⟨hnext s, hnext _, fun mode hmode => ?_, fun hv => ?_⟩
  · have hconstrained : movementOperand (mode :: rest) = some true := by simpa [movementOperand] using hmode
    simp only [exec, execDevSetMovement, hconstrained]
    exact hnext _
  · rw [decodeMessage_device hv hc, decodeDevice_opcDevSetMovement hv]

end Machine

end Sys2Proof

/-! PROOF. O15 to O17, O19, O20, O27: what the note and bend commands write (R160 to R166), the bent period against the
real-valued nominal one (R167, R168), and the step that follows a command (R172). -/

namespace Sys2Proof

section opcodes

variable {cfg : Config}

theorem decodeDevice_opcDevNoteOff (hv : cfg.valid = true) (c : Nat) (payload : List Byte) :
    decodeDevice cfg c cfg.opcDevNoteOff payload = .devNoteOff c payload := by
  have hd := Config.deviceOpcodes_nodup hv
  simp only [Config.deviceOpcodes, List.nodup_cons, List.mem_cons, not_or] at hd
  obtain ⟨⟨hreset, -⟩, -⟩ := hd
  simp [decodeDevice, Ne.symm hreset]

theorem decodeDevice_opcDevNoteOn (hv : cfg.valid = true) (c : Nat) (payload : List Byte) :
    decodeDevice cfg c cfg.opcDevNoteOn payload = .devNoteOn c payload := by
  have hd := Config.deviceOpcodes_nodup hv
  simp only [Config.deviceOpcodes, List.nodup_cons, List.mem_cons, not_or] at hd
  obtain ⟨⟨-, hreset, -⟩, ⟨hoff, -⟩, -⟩ := hd
  simp [decodeDevice, Ne.symm hreset, Ne.symm hoff]

end opcodes

namespace Machine

/-- A device command for a channel that is there answers its next state (R148). -/
theorem onChannel_of_lt {c : Nat} {s : State} (hc : c < s.cfg.nch) (t : State) : onChannel c s t = .next t :=
  (onChannel_eq_next_iff ..).mpr ⟨hc, rfl⟩

/-! What NOTE_ON and NOTE_OFF answer (R160 to R164). -/

/-- A note whose ROM entry is not 0 sets both periods to the entry (R160, R161). -/
theorem exec_devNoteOn_of_playable {c : Nat} {s : State} {note : Byte} (hp : romRead s.cfg note.toNat ≠ 0)
    (rest : List Byte) :
    exec (.devNoteOn c (note :: rest)) s = onChannel c s (s.modifyChan c fun ch =>
      { ch with curPeriod := romRead s.cfg note.toNat, origPeriod := romRead s.cfg note.toNat }) :=
  if_neg hp

/-- An unplayable note is a no-op (R162). -/
theorem exec_devNoteOn_of_unplayable {c : Nat} {s : State} {note : Byte} (hp : romRead s.cfg note.toNat = 0)
    (rest : List Byte) : exec (.devNoteOn c (note :: rest)) s = onChannel c s s :=
  if_pos hp

theorem romRead_of_le {note : Nat} (h : note ≤ 127) (cfg : Config) : romRead cfg note = cfg.freqRom.getD note 0 :=
  if_pos h

/-- "outside the ROM or outside the playable range" the ROM reads 0 (R161, R162). -/
theorem romRead_eq_zero {cfg : Config} {note : Nat} (h : 127 < note ∨ cfg.freqRom.getD note 0 = 0) :
    romRead cfg note = 0 := by
  rw [romRead, ite_eq_right_iff]
  exact fun hle => h.resolve_left (by omega)

/-- Settles O15, by what the ROM reads for the note. -/
theorem noteOnStoresTheRomEntryOrNothing : Obligations.NoteOnStoresTheRomEntryOrNothing := by
  refine fun s c note rest hc => ⟨fun hnote hrom => ?_, fun h => ?_, onChannel_of_lt hc s, fun hv => ?_⟩
  · have hread := romRead_of_le hnote s.cfg
    rw [exec_devNoteOn_of_playable (hread ▸ hrom), onChannel_of_lt hc, hread]
    rfl
  · rw [exec_devNoteOn_of_unplayable (romRead_eq_zero h), onChannel_of_lt hc]
  · rw [decodeMessage_device hv hc, decodeDevice_opcDevNoteOn hv]

/-- Settles O16: the handler does not look at its payload. -/
theorem noteOffClearsBothPeriods : Obligations.NoteOffClearsBothPeriods := by
  refine fun s c payload hc => ⟨onChannel_of_lt hc _, fun hv => ?_⟩
  rw [decodeMessage_device hv hc, decodeDevice_opcDevNoteOff hv]

/-! The frame of the three commands (R165, R166). -/

/-- A record with new periods, each found from the old record, and everything else kept. -/
def Channel.setPeriods (cur orig : Channel → Nat) (ch : Channel) : Channel :=
  { ch with curPeriod := cur ch, origPeriod := orig ch }

theorem State.modifyChan_setPeriods_self (s : State) (c : Nat) :
    s.modifyChan c (Channel.setPeriods Channel.curPeriod Channel.origPeriod) = s := by
  have hid : (fun l : Lane => { l with ch := l.ch.setPeriods Channel.curPeriod Channel.origPeriod }) = id := rfl
  rw [State.modifyChan, hid, List.modify_id]

theorem exists_setPeriods_of_devNoteOn {c : Nat} {payload : List Byte} {s t : State}
    (h : exec (.devNoteOn c payload) s = .next t) : ∃ cur orig, t = s.modifyChan c (Channel.setPeriods cur orig) := by
  cases payload with
  | nil =>
    obtain ⟨-, rfl⟩ := (onChannel_eq_next_iff ..).mp h
    exact ⟨_, _, (s.modifyChan_setPeriods_self c).symm⟩
  | cons note rest =>
    by_cases hp : romRead s.cfg note.toNat = 0
    · rw [exec_devNoteOn_of_unplayable hp] at h
      obtain ⟨-, rfl⟩ := (onChannel_eq_next_iff ..).mp h
      exact ⟨_, _, (s.modifyChan_setPeriods_self c).symm⟩
    · rw [exec_devNoteOn_of_playable hp] at h
      obtain ⟨-, rfl⟩ := (onChannel_eq_next_iff ..).mp h
      exact ⟨_, _, rfl⟩

theorem exists_setPeriods_of_devNoteOff {c : Nat} {payload : List Byte} {s t : State}
    (h : exec (.devNoteOff c payload) s = .next t) : ∃ cur orig, t = s.modifyChan c (Channel.setPeriods cur orig) := by
  obtain ⟨-, rfl⟩ := (onChannel_eq_next_iff ..).mp h
  exact ⟨_, _, rfl⟩

/-- A bend keeps ORIG_PERIOD; a bend without a defined result takes a free value (R166, R170). -/
theorem exists_setPeriods_of_devBendPitch {c : Nat} {payload : List Byte} {s t : State}
    (h : exec (.devBendPitch c payload) s = .next t) :
    ∃ cur i, t = { s.modifyChan c (Channel.setPeriods cur Channel.origPeriod) with freeIdx := i } := by
  simp only [exec, execDevBendPitch] at h
  split at h <;> obtain ⟨-, rfl⟩ := (onChannel_eq_next_iff ..).mp h
  · exact ⟨Channel.curPeriod, s.freeIdx, (s.modifyChan_setPeriods_self c).symm⟩
  · unfold bendChannel
    split
    · exact ⟨fun ch => bendScale s.cfg ch.origPeriod _, s.freeIdx, rfl⟩
    · exact ⟨fun _ => drawnPeriod s.cfg s.freeIdx, s.freeIdx + 1, rfl⟩

/-- Every command of the three answers a state in which only the periods of its channel and the free index differ. -/
theorem exists_setPeriods_of_exec {c : Nat} {payload : List Byte} {s t : State}
    (h : exec (.devNoteOn c payload) s = .next t ∨ exec (.devNoteOff c payload) s = .next t ∨
      exec (.devBendPitch c payload) s = .next t) :
    ∃ cur orig i, t = { s.modifyChan c (Channel.setPeriods cur orig) with freeIdx := i } := by
  obtain h | h | h := h
  · obtain ⟨cur, orig, rfl⟩ := exists_setPeriods_of_devNoteOn h
    exact ⟨cur, orig, _, rfl⟩
  · obtain ⟨cur, orig, rfl⟩ := exists_setPeriods_of_devNoteOff h
    exact ⟨cur, orig, _, rfl⟩
  · obtain ⟨cur, i, rfl⟩ := exists_setPeriods_of_devBendPitch h
    exact ⟨cur, _, i, rfl⟩

/-- A write that keeps ORIG_PERIOD keeps it for a channel that is there and for one that is not. -/
theorem State.modifyChan_chan_origPeriod {f : Channel → Channel} (hf : ∀ ch, (f ch).origPeriod = ch.origPeriod)
    (s : State) (c : Nat) : ((s.modifyChan c f).chan c).origPeriod = (s.chan c).origPeriod := by
  cases hl : s.lanes[c]? with
  | none => simp [State.chan, List.getD_eq_getElem?_getD, hl]
  | some l => simp [State.chan, List.getD_eq_getElem?_getD, hl, hf]

/-- Settles O17, from the write of two periods that each of the three commands is. -/
theorem noteAndBendCommandsWriteOnlyPeriods : Obligations.NoteAndBendCommandsWriteOnlyPeriods := by
  intro s t c payload h
  refine ⟨?_, ?_, fun k l hl => ?_, fun hbend => ?_⟩
  · obtain ⟨cur, orig, i, rfl⟩ := exists_setPeriods_of_exec h
    rfl
  · obtain ⟨cur, orig, i, rfl⟩ := exists_setPeriods_of_exec h
    exact s.modifyChan_length c _
  · obtain ⟨cur, orig, i, rfl⟩ := exists_setPeriods_of_exec h
    refine ⟨_, (s.modifyChan_getElem? c k _).trans (congrArg _ hl), fun hk => if_neg hk.symm, ?_⟩
    split <;> rfl
  · obtain ⟨cur, i, rfl⟩ := exists_setPeriods_of_devBendPitch hbend
    exact State.modifyChan_chan_origPeriod (f := Channel.setPeriods cur Channel.origPeriod) (fun _ => rfl) s c

/-! The tick after a command (R172). -/

theorem tick_getElem? (s : State) (c : Nat) :
    (tick s).lanes[c]? = s.lanes[c]?.map fun l => (tickLane s.cfg c l).lane := by
  rw [tick, State.overLanesThenCommit_lanes, State.overLanes_getElem?]

/-- A playing channel whose count stays below its period only counts (R182). -/
theorem exists_tick_lane_of_counting {s : State} {c : Nat} {l : Lane} (hl : s.lanes[c]? = some l)
    (hlt : l.ch.elapsed + 1 < l.ch.curPeriod) :
    ∃ l', (tick s).lanes[c]? = some l' ∧ l'.ch = { l.ch with elapsed := l.ch.elapsed + 1 } := by
  refine ⟨_, (tick_getElem? s c).trans (congrArg _ hl), ?_⟩
  rw [tickLane_ch, if_neg (by omega), if_pos hlt]

/-- A playing channel whose count reaches its period steps, with the count cleared (R183, R184). -/
theorem exists_tick_lane_of_due {s : State} {c : Nat} {l : Lane} (hl : s.lanes[c]? = some l) (hp : 0 < l.ch.curPeriod)
    (hge : l.ch.curPeriod ≤ l.ch.elapsed + 1) :
    ∃ l', (tick s).lanes[c]? = some l' ∧ l'.ch = stepChannel { l.ch with elapsed := 0 } := by
  refine ⟨_, (tick_getElem? s c).trans (congrArg _ hl), ?_⟩
  rw [tickLane_ch, if_neg (by omega), if_neg (by omega)]

/-- TICKs that leave the count below the period only count (R182). -/
theorem exists_ticks_lane_of_counting {s : State} {c : Nat} {l : Lane} (hl : s.lanes[c]? = some l) (k : Nat)
    (hk : k < max 1 (l.ch.curPeriod - l.ch.elapsed)) :
    ∃ l', (tick^[k] s).lanes[c]? = some l' ∧ l'.ch = { l.ch with elapsed := l.ch.elapsed + k } := by
  induction k with
  | zero => exact ⟨l, hl, rfl⟩
  | succ k ih =>
    obtain ⟨m, hm, hch⟩ := ih (by omega)
    have hlt : m.ch.elapsed + 1 < m.ch.curPeriod := by
      simp only [hch]
      omega
    rw [Function.iterate_succ_apply']
    obtain ⟨l', hl', hch'⟩ := exists_tick_lane_of_counting hm hlt
    refine ⟨l', hl', ?_⟩
    rw [hch', hch, Nat.add_assoc]

/-- Settles O27: the TICKs before the last one count, and the last one finds the count at the period. -/
theorem nextStepComesWhenTheCountReachesThePeriod : Obligations.NextStepComesWhenTheCountReachesThePeriod := by
  intro s c l hl hp
  refine ⟨exists_ticks_lane_of_counting hl, ?_⟩
  obtain ⟨n, hn⟩ : ∃ n, max 1 (l.ch.curPeriod - l.ch.elapsed) = n + 1 := Nat.exists_eq_add_of_le' (le_max_left ..)
  obtain ⟨m, hm, hch⟩ := exists_ticks_lane_of_counting hl n (by omega)
  have hdue : m.ch.curPeriod ≤ m.ch.elapsed + 1 := by
    simp only [hch]
    omega
  rw [hn, Function.iterate_succ_apply']
  obtain ⟨l', hl', hch'⟩ := exists_tick_lane_of_due hm (by rwa [hch]) hdue
  refine ⟨l', hl', ?_⟩
  rw [hch', hch]

/-! The bent period against the real-valued nominal one (R167, R168). -/

/-- `BendNominal(p, d)` (R167). -/
noncomputable def bendNominal (octaves : ℚ) (p : ℕ) (d : ℤ) : ℝ := p / 2 ^ ((octaves : ℝ) * d / 8192)

theorem bendNominal_nonneg (octaves : ℚ) (p : ℕ) (d : ℤ) : 0 ≤ bendNominal octaves p d := by
  unfold bendNominal
  positivity

/-- B1: no deflection bends nothing. -/
theorem bendNominal_zero_deflection (octaves : ℚ) (p : ℕ) : bendNominal octaves p 0 = p := by simp [bendNominal]

/-- B2: silence bends to silence. -/
theorem bendNominal_zero_period (octaves : ℚ) (d : ℤ) : bendNominal octaves 0 d = 0 := by simp [bendNominal]

/-- The model's exponent is the real one in lowest terms. -/
theorem coe_bendExponent (octaves : ℚ) (d : ℤ) : ((bendExponent octaves d : ℚ) : ℝ) = octaves * d / 8192 := by
  have hrat : bendExponent octaves d = octaves * d / 8192 := by
    rw [bendExponent, Rat.mkRat_eq_div]
    push_cast
    rw [mul_div_mul_comm, Rat.num_div_den, mul_div_assoc]
  rw [hrat]
  push_cast
  rfl

/-- Both sides of a comparison with the nominal period are raised to the denominator of the exponent `x/q`: then
`k 2^(x/q)` becomes `k^q 2^x`, with a negative `x` on the other side. -/
theorem mul_two_rpow_pow_den (e : ℚ) (k : ℕ) :
    ((k : ℝ) * 2 ^ (e : ℝ)) ^ e.den * 2 ^ (-e.num).toNat = (k : ℝ) ^ e.den * 2 ^ e.num.toNat := by
  have hnum : (e : ℝ) * e.den = e.num := by exact_mod_cast Rat.mul_den_eq_num e
  have hsplit : (e.num : ℝ) + ((-e.num).toNat : ℝ) = (e.num.toNat : ℝ) := by
    exact_mod_cast (by omega : e.num + ((-e.num).toNat : ℤ) = e.num.toNat)
  calc ((k : ℝ) * 2 ^ (e : ℝ)) ^ e.den * 2 ^ (-e.num).toNat
      = (k : ℝ) ^ e.den * (2 ^ ((e : ℝ) * e.den) * 2 ^ ((-e.num).toNat : ℝ)) := by
        rw [mul_pow, Real.rpow_mul_natCast zero_le_two, Real.rpow_natCast, mul_assoc]
    _ = (k : ℝ) ^ e.den * 2 ^ e.num.toNat := by
        rw [hnum, ← Real.rpow_add zero_lt_two, hsplit, Real.rpow_natCast]

/-- Raising to the denominator and scaling keeps the order. -/
theorem pow_den_mul_le_iff (e : ℚ) {x y : ℝ} (hx : 0 ≤ x) (hy : 0 ≤ y) :
    x ^ e.den * 2 ^ (-e.num).toNat ≤ y ^ e.den * 2 ^ (-e.num).toNat ↔ x ≤ y := by
  rw [mul_le_mul_iff_left₀ (by positivity), pow_le_pow_iff_left₀ hx hy e.den_ne_zero]

/-- The comparison of natural numbers decides the comparison of `k` with the real-valued nominal period. -/
theorem atMostNominal_iff (octaves : ℚ) (p k : ℕ) (d : ℤ) :
    atMostNominal (bendExponent octaves d) p k = true ↔ (k : ℝ) ≤ bendNominal octaves p d := by
  rw [atMostNominal, decide_eq_true_eq, ← Nat.cast_le (α := ℝ), bendNominal, ← coe_bendExponent,
    le_div_iff₀ (by positivity)]
  push_cast
  rw [← mul_two_rpow_pow_den, pow_den_mul_le_iff _ (by positivity) (by positivity)]

theorem atLeastNominal_iff (octaves : ℚ) (p k : ℕ) (d : ℤ) :
    atLeastNominal (bendExponent octaves d) p k = true ↔ bendNominal octaves p d ≤ k := by
  rw [atLeastNominal, decide_eq_true_eq, ← Nat.cast_le (α := ℝ), bendNominal, ← coe_bendExponent,
    div_le_iff₀ (by positivity)]
  push_cast
  rw [← mul_two_rpow_pow_den, pow_den_mul_le_iff _ (by positivity) (by positivity)]

/-- B5: the result is defined exactly where the nominal period fits `PERIOD_W` bits. -/
theorem bendFits_iff (cfg : Config) (p : ℕ) (d : ℤ) :
    bendFits cfg p d = true ↔ bendNominal cfg.bendOctaves p d ≤ 2 ^ cfg.periodW - 1 := by
  rw [bendFits, atLeastNominal_iff, Nat.cast_sub Nat.one_le_two_pow]
  push_cast
  rfl

/-- The bitwise search finds the floor of a nominal period that fits. -/
theorem bendFloor_eq_floor {cfg : Config} {p : ℕ} {d : ℤ} (h : bendFits cfg p d = true) :
    bendFloor cfg p d = ⌊bendNominal cfg.bendOctaves p d⌋₊ := by
  have hzero : atMostNominal (bendExponent cfg.bendOctaves d) p 0 = true :=
    (atMostNominal_iff ..).mpr (by simpa using bendNominal_nonneg ..)
  obtain ⟨-, -, hle, hnext⟩ := searchDown_spec _ (atMostNominal_mono _ p) cfg.periodW 0 hzero
  rw [← bendFloor] at hle hnext
  rw [zero_add] at hnext
  refine ((Nat.floor_eq_iff (bendNominal_nonneg ..)).mpr ⟨(atMostNominal_iff ..).mp hle, ?_⟩).symm
  rcases Nat.lt_or_ge (bendFloor cfg p d + 1) (2 ^ cfg.periodW) with hroom | htop
  · have hfail := hnext hroom
    rw [← Bool.not_eq_true, atMostNominal_iff, not_le] at hfail
    exact_mod_cast hfail
  · have hbound : (2 : ℝ) ^ cfg.periodW ≤ bendFloor cfg p d + 1 := by exact_mod_cast htop
    have hfits := (bendFits_iff cfg p d).mp h
    linarith

/-- B3, B4: where the nominal period fits, the result is that period rounded one way or the other, by a choice that
depends on BEND_OCTAVES, the original period and the deflection only. -/
theorem bendScale_eq_round {cfg : Config} {p : ℕ} {d : ℤ} (h : bendFits cfg p d = true) :
    bendScale cfg p d = if Config.bendRoundsUp cfg.bendOctaves p d then ⌈bendNominal cfg.bendOctaves p d⌉₊
      else ⌊bendNominal cfg.bendOctaves p d⌋₊ := by
  rw [bendScale, bendFloor_eq_floor h]
  simp only [atLeastNominal_iff]
  generalize bendNominal cfg.bendOctaves p d = nominal
  by_cases hwhole : nominal ≤ ⌊nominal⌋₊
  · have hceil : ⌈nominal⌉₊ = ⌊nominal⌋₊ := (Nat.ceil_le.mpr hwhole).antisymm (Nat.floor_le_ceil _)
    rw [if_pos hwhole, hceil, ite_self]
  · have hceil : ⌈nominal⌉₊ = ⌊nominal⌋₊ + 1 :=
      (Nat.ceil_le_floor_add_one _).antisymm (Nat.lt_ceil.mpr (not_le.mp hwhole))
    rw [if_neg hwhole, hceil]

/-- A nominal period that is a whole number is the result (R168). -/
theorem bendScale_of_nominal_eq {cfg : Config} {p n : ℕ} {d : ℤ} (hn : bendNominal cfg.bendOctaves p d = n)
    (hlt : n < 2 ^ cfg.periodW) : bendFits cfg p d = true ∧ bendScale cfg p d = n := by
  have hfits : bendFits cfg p d = true := by
    rw [bendFits, atLeastNominal_iff, hn]
    exact_mod_cast Nat.le_sub_one_of_lt hlt
  rw [bendScale_eq_round hfits, hn, Nat.ceil_natCast, Nat.floor_natCast, ite_self]
  exact ⟨hfits, rfl⟩

/-- B1: a bend by 0 gives the period itself. -/
theorem bendScale_zero_deflection {cfg : Config} {p : ℕ} (hp : p < 2 ^ cfg.periodW) :
    bendFits cfg p 0 = true ∧ bendScale cfg p 0 = p :=
  bendScale_of_nominal_eq (bendNominal_zero_deflection ..) hp

/-- Settles O19: B1 and B2 where the nominal period is a whole number, B3 and B4 from the rounding, B5 from the fit. -/
theorem bendScaleObeysItsLaws : Obligations.BendScaleObeysItsLaws := by
  intro cfg _
  refine ⟨fun p hp => bendScale_zero_deflection hp, fun d => ?_, fun cfg' p d hoct hfits hfits' => ?_,
    fun p d _ _ _ => ⟨bendFits_iff cfg p d, fun hfits => ?_⟩⟩
  · exact bendScale_of_nominal_eq (by simpa using bendNominal_zero_period ..) (Nat.two_pow_pos _)
  · rw [bendScale_eq_round hfits, bendScale_eq_round hfits', hoct]
  · rw [bendScale_eq_round hfits, ← bendNominal, ← Int.natCast_floor_eq_floor (bendNominal_nonneg ..),
      ← Int.natCast_ceil_eq_ceil (bendNominal_nonneg ..), Nat.cast_le, Nat.cast_le]
    split
    · exact ⟨Nat.floor_le_ceil _, le_rfl⟩
    · exact ⟨le_rfl, Nat.floor_le_ceil _⟩

/-! Bends of one channel (R166, R171). -/

theorem bendChannel_of_defined {c : Nat} {d : Int} {s : State}
    (hd : bendDefined s.cfg (s.chan c).origPeriod d = true) :
    bendChannel c d s = s.modifyChan c fun ch => { ch with curPeriod := bendScale s.cfg ch.origPeriod d } :=
  if_pos hd

/-- A write reads the record of its channel only. -/
theorem State.modifyChan_congr {s : State} {c : Nat} {f g : Channel → Channel} (h : f (s.chan c) = g (s.chan c)) :
    s.modifyChan c f = s.modifyChan c g := by
  have hlanes : (s.modifyChan c f).lanes = (s.modifyChan c g).lanes := by
    ext1 k
    rw [State.modifyChan_getElem?, State.modifyChan_getElem?]
    refine Option.map_congr fun l hl => ?_
    split
    next hk =>
      subst hk
      rw [State.chan_of_getElem? hl] at h
      rw [h]
    next => rfl
  rw [State.modifyChan, State.modifyChan, State.mk.injEq]
  simpa using hlanes

theorem State.modifyChan_chan_same {s : State} {c : Nat} (hc : c < s.lanes.length) (f : Channel → Channel) :
    (s.modifyChan c f).chan c = f (s.chan c) := by
  simp [State.chan, hc]

/-- The current period after a bend with a defined result (R166). -/
theorem chan_curPeriod_of_devBendPitch {s t : State} {c : Nat} {hi lo : Byte} {rest : List Byte}
    (hc : c < s.lanes.length) (hd : bendDefined s.cfg (s.chan c).origPeriod (hi ++ lo).toInt = true)
    (h : exec (.devBendPitch c (hi :: lo :: rest)) s = .next t) :
    (t.chan c).curPeriod = bendScale s.cfg (s.chan c).origPeriod (hi ++ lo).toInt := by
  obtain ⟨-, rfl⟩ := (onChannel_eq_next_iff ..).mp h
  rw [bendChannel_of_defined hd, State.modifyChan_chan_same hc]

/-- Settles O20: a bend by 0 gives the period itself, and a defined result reads the original period and the deflection
only. -/
theorem bendsDoNotDrift : Obligations.BendsDoNotDrift := by
  refine ⟨fun s c rest hc hp => ?_, fun s s' t t' c hi lo rest rest' hcfg hc hc' horig hd ht ht' => ?_⟩
  · obtain ⟨hfits, hscale⟩ := bendScale_zero_deflection hp
    have hd : bendDefined s.cfg (s.chan c).origPeriod 0 = true := by simpa [bendDefined, deflectionOk] using hfits
    calc exec (.devBendPitch c (0 :: 0 :: rest)) s
        = .next (bendChannel c 0 s) := onChannel_of_lt hc _
      _ = .next (s.modifyChan c fun ch => { ch with curPeriod := ch.origPeriod }) := by
          rw [bendChannel_of_defined hd, State.modifyChan_congr]
          rw [hscale]
  · have hd' : bendDefined s'.cfg (s'.chan c).origPeriod (hi ++ lo).toInt = true := by rwa [hcfg, horig]
    rw [chan_curPeriod_of_devBendPitch hc hd ht, chan_curPeriod_of_devBendPitch hc' hd' ht', hcfg, horig]

end Machine

end Sys2Proof

/-! PROOF. O23, O24, O26, O28, O29: what one step does to a record and how a position outside the bounds walks back
(R184, R185), TICK on every record with its frame (R180 to R183), the silent channels (R181) and the record invariants
(R186). -/

namespace Sys2Proof.Machine

/-! One step of a channel record (R184). -/

theorem advance_eq (d : Dir) (position : Int) :
    advance d position = if d = .forward then position + 1 else position - 1 := by
  cases d <;> rfl

theorem stepChannel_of_atTop {ch : Channel} (h : ch.maxPos ≤ ch.position) :
    stepChannel ch = { ch with dir := .reverse, position := ch.position - 1, out := !ch.out } := by
  rw [stepChannel, stepDir, if_pos h]
  rfl

theorem stepChannel_of_atBottom {ch : Channel} (hmax : ch.position < ch.maxPos) (hmin : ch.position ≤ ch.minPos) :
    stepChannel ch = { ch with dir := .forward, position := ch.position + 1, out := !ch.out } := by
  rw [stepChannel, stepDir, if_neg hmax.not_ge, if_pos hmin]
  rfl

theorem stepChannel_of_inside {ch : Channel} (hmin : ch.minPos < ch.position) (hmax : ch.position < ch.maxPos) :
    stepChannel ch = { ch with
      position := if ch.dir = .forward then ch.position + 1 else ch.position - 1, out := !ch.out } := by
  rw [stepChannel, stepDir, if_neg hmax.not_ge, if_neg hmin.not_ge, advance_eq]
  rfl

@[simp] theorem stepChannel_curPeriod (ch : Channel) : (stepChannel ch).curPeriod = ch.curPeriod := rfl
@[simp] theorem stepChannel_elapsed (ch : Channel) : (stepChannel ch).elapsed = ch.elapsed := rfl
@[simp] theorem stepChannel_minPos (ch : Channel) : (stepChannel ch).minPos = ch.minPos := rfl
@[simp] theorem stepChannel_maxPos (ch : Channel) : (stepChannel ch).maxPos = ch.maxPos := rfl
@[simp] theorem stepChannel_out (ch : Channel) : (stepChannel ch).out = !ch.out := rfl

theorem stepChannel_position_oneUnit (ch : Channel) :
    (stepChannel ch).position = ch.position + 1 ∨ (stepChannel ch).position = ch.position - 1 := by
  change advance (stepDir ch) ch.position = _ ∨ advance (stepDir ch) ch.position = _
  cases stepDir ch
  · exact .inl rfl
  · exact .inr rfl

/-- (I2): a step from within bounds that are in order ends within them (R29, R186). -/
theorem stepChannel_position_within {ch : Channel} (hmin : ch.minPos ≤ ch.position) (hmax : ch.position ≤ ch.maxPos)
    (hord : ch.minPos < ch.maxPos) :
    ch.minPos ≤ (stepChannel ch).position ∧ (stepChannel ch).position ≤ ch.maxPos := by
  rcases hmax.eq_or_lt with htop | htop
  · rw [stepChannel_of_atTop htop.ge]
    dsimp only
    omega
  rcases hmin.eq_or_lt with hbot | hbot
  · rw [stepChannel_of_atBottom htop hbot.ge]
    dsimp only
    omega
  · have := stepChannel_position_oneUnit ch
    omega

/-- Settles O23, by the three cases of a step on the record. -/
theorem stepTurnsAtTheBoundsAndToggles : Obligations.StepTurnsAtTheBoundsAndToggles := by
  intro cfg c l
  rw [stepLane_ch]
  exact ⟨rfl, stepChannel_of_atTop, stepChannel_of_atBottom, stepChannel_of_inside⟩

/-! The walk back to the bounds (R185). -/

/-- As long as the steps are taken at or above the upper bound, each goes down one unit. -/
theorem iterate_stepChannel_position_of_above {ch : Channel} (k : Nat) (h : ch.maxPos + k ≤ ch.position + 1) :
    (stepChannel^[k] ch).position = ch.position - k := by
  induction k generalizing ch with
  | zero => simp
  | succ k ih =>
    have hpos : (stepChannel ch).position = ch.position - 1 := by rw [stepChannel_of_atTop (by omega)]
    rw [Function.iterate_succ_apply, ih (ch := stepChannel ch) (by rw [stepChannel_maxPos]; omega)]
    omega

/-- As long as the steps are taken at or below the lower bound, each goes up one unit. -/
theorem iterate_stepChannel_position_of_below {ch : Channel} (k : Nat) (h : ch.position + k ≤ ch.minPos + 1)
    (hord : ch.minPos < ch.maxPos) : (stepChannel^[k] ch).position = ch.position + k := by
  induction k generalizing ch with
  | zero => simp
  | succ k ih =>
    have hpos : (stepChannel ch).position = ch.position + 1 := by
      rw [stepChannel_of_atBottom (by omega) (by omega)]
    rw [Function.iterate_succ_apply, ih (ch := stepChannel ch) (by rw [stepChannel_minPos]; omega) hord]
    omega

/-- Settles O29: the n steps from outside and the one from the bound are all taken at or beyond that bound. -/
theorem positionWalksBackToTheBounds : Obligations.PositionWalksBackToTheBounds := by
  refine ⟨fun ch n hn => ?_, fun ch n hn hord => ?_⟩
  · have walk : ∀ k ≤ n + 1, (stepChannel^[k] ch).position = ch.position - k :=
      fun k hk => iterate_stepChannel_position_of_above k (by omega)
    refine ⟨fun k hk => walk k (by omega), ?_, ?_⟩
    · rw [walk n (by omega)]
      omega
    · rw [walk (n + 1) le_rfl]
      omega
  · have walk : ∀ k ≤ n + 1, (stepChannel^[k] ch).position = ch.position + k :=
      fun k hk => iterate_stepChannel_position_of_below k (by omega) hord
    refine ⟨fun k hk => walk k (by omega), ?_, ?_⟩
    · rw [walk n (by omega)]
      omega
    · rw [walk (n + 1) le_rfl]
      omega

/-! TICK on one lane (R181 to R183). -/

section tickLane

variable {cfg : Config} {c : Nat} {l : Lane}

theorem tickLane_of_silent (h : l.ch.curPeriod = 0) : tickLane cfg c l = LaneResult.idle l := if_pos h

theorem tickLane_of_counting (h : l.ch.elapsed + 1 < l.ch.curPeriod) :
    tickLane cfg c l = LaneResult.idle { l with ch := { l.ch with elapsed := l.ch.elapsed + 1 } } := by
  rw [tickLane, if_neg (by omega), if_pos h]

theorem tickLane_of_due (h : stepDue l) :
    tickLane cfg c l = stepLane cfg c { l with ch := { l.ch with elapsed := 0 } } := by
  rw [tickLane, if_neg h.1, if_neg h.2.not_gt]

end tickLane

/-- Everything TICK can do to a lane: nothing, a count, or a step with the count cleared. -/
theorem tick_lane_cases {s : State} {c : Nat} {l l' : Lane} (hl : s.lanes[c]? = some l)
    (hl' : (tick s).lanes[c]? = some l') :
    (l.ch.curPeriod = 0 ∧ l' = l) ∨
    (l.ch.elapsed + 1 < l.ch.curPeriod ∧ l' = { l with ch := { l.ch with elapsed := l.ch.elapsed + 1 } }) ∨
    (stepDue l ∧ l'.ch = stepChannel { l.ch with elapsed := 0 }) := by
  obtain rfl : (tickLane s.cfg c l).lane = l' := by simpa [tick_getElem?, hl] using hl'
  by_cases hsilent : l.ch.curPeriod = 0
  · exact .inl ⟨hsilent, by rw [tickLane_of_silent hsilent, LaneResult.idle_lane]⟩
  by_cases hlt : l.ch.elapsed + 1 < l.ch.curPeriod
  · exact .inr (.inl ⟨hlt, by rw [tickLane_of_counting hlt, LaneResult.idle_lane]⟩)
  · have hdue : stepDue l := ⟨hsilent, Nat.le_of_not_lt hlt⟩
    exact .inr (.inr ⟨hdue, by rw [tickLane_of_due hdue, stepLane_ch]⟩)

/-- Settles O28, by what TICK did to the lane: nothing, a count that stays below the period, or one step. -/
theorem tickRestoresTheRecordInvariants : Obligations.TickRestoresTheRecordInvariants := by
  intro s c l l' hl hl'
  obtain ⟨hsilent, rfl⟩ | ⟨hlt, rfl⟩ | ⟨⟨hplays, hge⟩, hch⟩ := tick_lane_cases hl hl'
  · exact ⟨by omega, fun hmin hmax _ => ⟨hmin, hmax⟩, fun _ => ⟨rfl, rfl⟩, fun h => absurd hsilent h, by omega⟩
  · exact ⟨fun _ => hlt, fun hmin hmax _ => ⟨hmin, hmax⟩, fun _ => ⟨rfl, rfl⟩, by omega, by omega⟩
  · rw [hch]
    refine ⟨by simp, stepChannel_position_within, fun h => absurd h hplays, fun _ _ => ?_, fun _ _ => ?_⟩
    · simp
    · exact ⟨rfl, rfl, stepChannel_position_oneUnit _⟩

/-! What an operation over all lanes leaves alone, and what it adds to the trace (R76, R180, R229). -/

theorem State.overLanesThenCommit_frame (s : State) (f : Nat → Lane → LaneResult) :
    s.overLanesThenCommit f = { s with
      lanes := (s.overLanesThenCommit f).lanes
      trace := (s.overLanesThenCommit f).trace
      srLatch := (s.overLanesThenCommit f).srLatch } := by
  unfold State.overLanesThenCommit commitBatch
  split
  · split <;> rfl
  · rfl

/-- The trace grows by the events of the lanes and then by shift-register commits only. -/
theorem State.exists_overLanesThenCommit_trace (s : State) (f : Nat → Lane → LaneResult) :
    ∃ commits, (∀ o ∈ commits, ∃ word, o = .srCommit word) ∧
      (s.overLanesThenCommit f).trace = s.trace ++ ((s.lanes.mapIdx fun c l => (f c l).outs).flatten ++ commits) := by
  unfold State.overLanesThenCommit
  split
  · obtain ⟨-, -, htrace⟩ | ⟨-, hsame⟩ := commitBatch_cases (s.overLanes f)
    · exact ⟨[.srCommit _], by simp, by rw [htrace, State.overLanes_trace, List.append_assoc]⟩
    · exact ⟨[], by simp, by rw [hsame, State.overLanes_trace, List.append_nil]⟩
  · exact ⟨[], by simp, by rw [State.overLanes_trace, List.append_nil]⟩

/-- An operation that touches no lane leaves the whole state. -/
theorem State.overLanesThenCommit_of_idle {s : State} {f : Nat → Lane → LaneResult}
    (h : ∀ (c : Nat) (l : Lane), l ∈ s.lanes → f c l = LaneResult.idle l) : s.overLanesThenCommit f = s := by
  have hacted : s.anyActed f ≠ true := by
    rw [Ne, State.anyActed_iff]
    rintro ⟨c, l, hl, hf⟩
    rw [h c l (List.mem_of_getElem? hl)] at hf
    cases hf
  have hlanes : (s.lanes.mapIdx fun c l => (f c l).lane) = s.lanes :=
    List.ext_getElem (by simp) fun c _ _ => by simp [h]
  have houts : (s.lanes.mapIdx fun c l => (f c l).outs).flatten = [] := by
    simp only [List.flatten_eq_nil_iff, List.mem_mapIdx]
    rintro _ ⟨c, hc, rfl⟩
    rw [h c _ (List.getElem_mem hc), LaneResult.idle_outs]
  rw [State.overLanesThenCommit, if_neg hacted, State.overLanes, hlanes, houts, List.append_nil]

/-- Settles O24: the frame is that of every operation over all lanes, and each lane falls under one of the three cases
of TICK. -/
theorem tickCountsComparesAndSteps : Obligations.TickCountsComparesAndSteps := by
  intro s hp
  obtain ⟨commits, -, htrace⟩ := s.exists_overLanesThenCommit_trace (tickLane s.cfg)
  refine ⟨tick s, if_pos hp, s.overLanesThenCommit_frame _, ⟨_, htrace⟩, by simp [tick], fun c l hl => ?_⟩
  refine ⟨(tickLane s.cfg c l).lane, by rw [tick_getElem?, hl, Option.map_some], fun hsilent => ?_, fun _ hlt => ?_,
    fun hdue => ?_⟩
  · rw [tickLane_of_silent hsilent, LaneResult.idle_lane]
  · rw [tickLane_of_counting hlt, LaneResult.idle_lane]
  · rw [tickLane_of_due hdue, stepLane_ch]
    rcases le_or_gt l.ch.maxPos l.ch.position with htop | htop
    · simp [stepChannel_of_atTop, htop]
    rcases le_or_gt l.ch.position l.ch.minPos with hbot | hbot
    · simp [stepChannel_of_atBottom, htop, hbot, htop.not_ge]
    · simp [stepChannel_of_inside, htop, hbot, htop.not_ge, hbot.not_ge]

/-! A silent channel (R181). -/

/-- The backend drives the pins of the lane that stepped and of no other (R222). -/
theorem applyLane_outs_drive {cfg : Config} {c k : Nat} (hk : k ≠ c) (level : Dir) (l : Lane) :
    ∀ o ∈ (applyLane cfg k level l).outs, o.drives c = false := by
  unfold applyLane dirPinWrites
  split
  · split <;> simp [Output.drives, hk]
  · simp
  · simp [Output.drives, hk]

/-- TICK drives no pin of another channel, and none of a silent one. -/
theorem tickLane_outs_drive {cfg : Config} {c k : Nat} {l : Lane} (hk : k = c → l.ch.curPeriod = 0) :
    ∀ o ∈ (tickLane cfg k l).outs, o.drives c = false := by
  by_cases hkc : k = c
  · simp [tickLane_of_silent (hk hkc)]
  unfold tickLane
  split
  · simp
  split
  · simp
  · exact applyLane_outs_drive hkc _ _

/-- One TICK leaves a silent lane as it is, and none of the events it adds drives a pin of that lane's channel. -/
theorem tick_of_silent {s : State} {c : Nat} {l : Lane} (hl : s.lanes[c]? = some l) (h : l.ch.curPeriod = 0) :
    (tick s).lanes[c]? = some l ∧ ∃ outs, (tick s).trace = s.trace ++ outs ∧ ∀ o ∈ outs, o.drives c = false := by
  refine ⟨by simp [tick_getElem?, hl, tickLane_of_silent h], ?_⟩
  obtain ⟨commits, hcommits, htrace⟩ := s.exists_overLanesThenCommit_trace (tickLane s.cfg)
  refine ⟨_, htrace, fun o ho => ?_⟩
  obtain ho | ho := List.mem_append.mp ho
  · simp only [List.mem_flatten, List.mem_mapIdx] at ho
    obtain ⟨_, ⟨k, hk, rfl⟩, ho⟩ := ho
    refine tickLane_outs_drive (fun hkc => ?_) o ho
    subst hkc
    obtain ⟨_, hlk⟩ := List.getElem?_eq_some_iff.mp hl
    rwa [hlk]
  · obtain ⟨word, rfl⟩ := hcommits o ho
    rfl

theorem iterate_tick_of_silent {s : State} {c : Nat} {l : Lane} (hl : s.lanes[c]? = some l) (h : l.ch.curPeriod = 0)
    (k : Nat) :
    (tick^[k] s).lanes[c]? = some l ∧
      ∃ outs, (tick^[k] s).trace = s.trace ++ outs ∧ ∀ o ∈ outs, o.drives c = false := by
  induction k with
  | zero => exact ⟨hl, [], by simp⟩
  | succ k ih =>
    obtain ⟨hlane, outs, htrace, houts⟩ := ih
    obtain ⟨hlane', outs', htrace', houts'⟩ := tick_of_silent hlane h
    rw [Function.iterate_succ_apply']
    refine ⟨hlane', outs ++ outs', by rw [htrace', htrace, List.append_assoc], fun o ho => ?_⟩
    exact (List.mem_append.mp ho).elim (houts o) (houts' o)

/-- Settles O26, by the TICKs one after another; where every channel is silent TICK is the identity. -/
theorem silentChannelsNeverAdvance : Obligations.SilentChannelsNeverAdvance := by
  refine ⟨fun s c l k hl h => ?_, fun s k h => ?_⟩
  · obtain ⟨hlane, outs, htrace, houts⟩ := iterate_tick_of_silent hl h k
    exact ⟨hlane, by rwa [htrace, List.drop_left]⟩
  · exact Function.iterate_fixed (State.overLanesThenCommit_of_idle fun _ l hl => tickLane_of_silent (h l hl)) k

end Sys2Proof.Machine

/-! PROOF. O31 to O35: what each homing member does to the lanes, the sequencer registers and the trace (R203, R205,
R206), which of them is enabled (R204), and a whole reset sequence with TICKs anywhere in it (R202, R211). -/

namespace Sys2Proof.Machine

/-! `apply(c)` and `dir_update(c)`, backend by backend (R222 to R235). -/

theorem applyLane_of_directPin {cfg : Config} (h : cfg.backend = .directPin) (c : Nat) (level : Dir) (l : Lane) :
    applyLane cfg c level l = ⟨l, dirPinWrites c level l.ch.dir ++ [.pinWrite (.step c) l.ch.out], true⟩ := by
  simp [applyLane, h]

theorem applyLane_of_shiftRegister {cfg : Config} (h : cfg.backend = .shiftRegister) (c : Nat) (level : Dir)
    (l : Lane) : applyLane cfg c level l = ⟨l, [], true⟩ := by
  simp [applyLane, h]

theorem applyLane_of_hBridge {cfg : Config} (h : cfg.backend = .hBridge) (c : Nat) (level : Dir) (l : Lane) :
    applyLane cfg c level l = ⟨{ l with phase := nextPhase cfg.stepTable.length l.ch.dir l.phase },
      [.bridgeWrite c (cfg.stepTable.getD (nextPhase cfg.stepTable.length l.ch.dir l.phase) 0)], true⟩ := by
  simp [applyLane, h, tableRead]

theorem applyLane_phase (cfg : Config) (c : Nat) (level : Dir) (l : Lane) :
    (applyLane cfg c level l).lane.phase =
      if cfg.backend = .hBridge then nextPhase cfg.stepTable.length l.ch.dir l.phase else l.phase := by
  cases h : cfg.backend with
  | directPin => simp [applyLane_of_directPin h]
  | shiftRegister => simp [applyLane_of_shiftRegister h]
  | hBridge => simp [applyLane_of_hBridge h]

@[simp] theorem dirPinWrites_self (c : Nat) (d : Dir) : dirPinWrites c d d = [] := if_pos rfl

theorem dirUpdate_eq (cfg : Config) (c : Nat) (level now : Dir) :
    dirUpdate cfg c level now = if cfg.backend = .directPin then dirPinWrites c level now else [] := by
  cases h : cfg.backend <;> simp [dirUpdate, h]

theorem eq_dirPin_of_mem_dirUpdate {cfg : Config} {c : Nat} {level now : Dir} {o : Output}
    (h : o ∈ dirUpdate cfg c level now) : ∃ k b, o = .pinWrite (.dir k) b := by
  rw [dirUpdate_eq, dirPinWrites] at h
  split at h
  · split at h
    · simp at h
    · exact ⟨c, now.level, by simpa using h⟩
  · simp at h

/-! The commit of an operation over all lanes, by backend (R229). -/

theorem State.overLanesThenCommit_of_not_shiftRegister {s : State} (h : s.cfg.backend ≠ .shiftRegister)
    (f : Nat → Lane → LaneResult) : s.overLanesThenCommit f = s.overLanes f := by
  obtain ⟨hb, -⟩ | ⟨-, hsame⟩ := commitBatch_cases (s.overLanes f)
  · exact absurd hb h
  · rw [State.overLanesThenCommit, hsame, ite_self]

/-- In the shift-register backend one commit follows the lanes, of the outputs they end with (R229). -/
theorem State.overLanesThenCommit_of_acted {s : State} (h : s.cfg.backend = .shiftRegister)
    {f : Nat → Lane → LaneResult} (hacted : s.anyActed f = true) :
    (s.overLanesThenCommit f).srLatch = packOuts (s.overLanesThenCommit f).lanes ∧
      (s.overLanesThenCommit f).trace =
        (s.overLanes f).trace ++ [.srCommit (packOuts (s.overLanesThenCommit f).lanes)] := by
  obtain ⟨-, hlatch, htrace⟩ | ⟨hb, -⟩ := commitBatch_cases (s.overLanes f)
  · rw [State.overLanesThenCommit_lanes, State.overLanesThenCommit, if_pos hacted]
    exact ⟨hlatch, htrace⟩
  · exact absurd h hb

theorem flatten_mapIdx_nil {α β : Type} (xs : List α) : (xs.mapIdx fun _ _ => ([] : List β)).flatten = [] := by
  simp [List.flatten_eq_nil_iff, List.mem_mapIdx]

/-! HOME_BEGIN and HOME_END on one lane, and as operations (R203, R206). -/

theorem homeBeginLane_lane (cfg : Config) (sel : List Nat) (c : Nat) (l : Lane) :
    (homeBeginLane cfg sel c l).lane =
      if c ∈ sel then { l with ch := { l.ch with curPeriod := 0, origPeriod := 0, dir := .reverse } } else l := by
  unfold homeBeginLane
  split <;> rfl

theorem homeBeginLane_outs (cfg : Config) (sel : List Nat) (c : Nat) (l : Lane) :
    (homeBeginLane cfg sel c l).outs = if c ∈ sel then dirUpdate cfg c l.ch.dir .reverse else [] := by
  unfold homeBeginLane
  split <;> rfl

theorem homeEndLane_lane (cfg : Config) (sel : List Nat) (c : Nat) (l : Lane) :
    (homeEndLane cfg sel c l).lane =
      if c ∈ sel then { l with ch := { l.ch with position := 0, elapsed := 0, dir := .forward } } else l := by
  unfold homeEndLane
  split <;> rfl

theorem homeEndLane_outs (cfg : Config) (sel : List Nat) (c : Nat) (l : Lane) :
    (homeEndLane cfg sel c l).outs = if c ∈ sel then dirUpdate cfg c l.ch.dir .forward else [] := by
  unfold homeEndLane
  split <;> rfl

theorem homeBegin_getElem?_of_mem {s : State} {sel : List Nat} {c : Nat} {l : Lane} (hc : c ∈ sel)
    (hl : s.lanes[c]? = some l) : (homeBegin sel s).lanes[c]? =
      some { l with ch := { l.ch with curPeriod := 0, origPeriod := 0, dir := .reverse } } := by
  simp [hl, homeBeginLane_lane, hc]

theorem homeBegin_getElem?_of_notMem {sel : List Nat} {c : Nat} (hc : c ∉ sel) (s : State) :
    (homeBegin sel s).lanes[c]? = s.lanes[c]? := by
  simp [homeBeginLane_lane, hc]

theorem homeEnd_getElem?_of_mem {s : State} {c : Nat} {l : Lane} (hc : c ∈ s.homeSel) (hl : s.lanes[c]? = some l) :
    (homeEnd s).lanes[c]? = some { l with ch := { l.ch with position := 0, elapsed := 0, dir := .forward } } := by
  simp [hl, homeEndLane_lane, hc]

theorem homeEnd_getElem?_of_notMem {s : State} {c : Nat} (hc : c ∉ s.homeSel) :
    (homeEnd s).lanes[c]? = s.lanes[c]? := by
  simp [homeEndLane_lane, hc]

/-- Forcing the selected channels to REVERSE writes the direction pins that showed FORWARD (R203, R225). -/
theorem dirUpdate_reverse (cfg : Config) (c : Nat) (level : Dir) :
    dirUpdate cfg c level .reverse =
      if cfg.backend = .directPin ∧ level = .forward then [.pinWrite (.dir c) true] else [] := by
  cases level <;> simp [dirUpdate_eq, dirPinWrites, Dir.level]

/-- Forcing the selected channels to FORWARD writes the direction pins that showed REVERSE (R206, R225). -/
theorem dirUpdate_forward (cfg : Config) (c : Nat) (level : Dir) :
    dirUpdate cfg c level .forward =
      if cfg.backend = .directPin ∧ level = .reverse then [.pinWrite (.dir c) false] else [] := by
  cases level <;> simp [dirUpdate_eq, dirPinWrites, Dir.level]

/-- Settles O31, lane by lane; the pins that change are those that showed FORWARD. -/
theorem homeBeginSilencesAndReverses : Obligations.HomeBeginSilencesAndReverses := by
  intro s sel hsel
  refine ⟨homeBegin sel s, if_pos hsel, rfl, by simp only [homeBegin_lanes, homeBeginLane_lane], ?_⟩
  rw [homeBegin_trace]
  simp only [homeBeginLane_outs, dirUpdate_reverse]
  by_cases hb : s.cfg.backend = .directPin
  · simp only [hb, true_and, if_true, ite_and]
  · simp [hb, flatten_mapIdx_nil]

/-! Which member is enabled while HOMING (R204). -/

theorem homeBeatEnabled_iff {s : State} (hp : s.powered = true) (hm : s.mode = .homing) :
    homeBeatEnabled s = true ↔ s.homeCnt < homeBeats s.cfg s.homeSel := by
  simp [homeBeatEnabled, hp, hm]

theorem homeEndEnabled_iff {s : State} (hp : s.powered = true) (hm : s.mode = .homing) :
    homeEndEnabled s = true ↔ s.homeCnt = homeBeats s.cfg s.homeSel := by
  simp [homeEndEnabled, hp, hm]

theorem mainTurn_of_homing {s : State} (hm : s.mode = .homing) :
    mainTurn s = if s.homeCnt < homeBeats s.cfg s.homeSel then exec .homeBeat s else exec .homeEnd s := by
  simp [mainTurn, hm]

/-- Settles O33, lane by lane; the pins that change are those that showed REVERSE. -/
theorem homeEndSetsTheReadyState : Obligations.HomeEndSetsTheReadyState := by
  intro s hp hm hcnt
  refine ⟨homeEnd s, if_pos ((homeEndEnabled_iff hp hm).mpr hcnt), rfl,
    by simp only [homeEnd_lanes, homeEndLane_lane], ?_⟩
  rw [homeEnd_trace]
  simp only [homeEndLane_outs, dirUpdate_forward]
  by_cases hb : s.cfg.backend = .directPin
  · simp only [hb, true_and, if_true, ite_and]
  · simp [hb, flatten_mapIdx_nil]

/-- Settles O34: the count is below N or is N, never both. -/
theorem exactlyOneHomingMemberIsEnabled : Obligations.ExactlyOneHomingMemberIsEnabled := by
  refine ⟨fun s hp hm hle => ?_, fun s hm => by simp [homeBeatEnabled, homeEndEnabled, hm]⟩
  have hbeat := homeBeatEnabled_iff hp hm
  have hend := homeEndEnabled_iff hp hm
  refine ⟨hbeat, hend, ?_, if_pos hp, by simp [rxEnabled, hm], fun h => ?_, fun h => ?_⟩
  · rw [hbeat, ← Bool.not_eq_true, hend]
    omega
  · rw [mainTurn_of_homing hm, if_pos (hbeat.mp h)]
  · rw [mainTurn_of_homing hm, if_neg (hend.mp h).not_lt]

/-! HOME_BEAT on one lane, and as an operation (R205). -/

/-- Channel `c` makes a transition in the next beat: it is selected and its own transitions are not used up (R205). -/
abbrev State.driven (s : State) (c : Nat) : Prop :=
  c ∈ s.homeSel ∧ s.homeCnt + 1 ≤ s.cfg.homeTransitions.getD c 0

theorem homeBeatLane_of_driven {s : State} {c : Nat} (h : s.driven c) (l : Lane) :
    homeBeatLane s.cfg s.homeSel (s.homeCnt + 1) c l = applyLane s.cfg c l.ch.dir { l with ch := toggleOut l.ch } :=
  if_pos h

theorem homeBeatLane_of_not_driven {s : State} {c : Nat} (h : ¬ s.driven c) (l : Lane) :
    homeBeatLane s.cfg s.homeSel (s.homeCnt + 1) c l = LaneResult.idle l :=
  if_neg h

theorem homeBeatLane_outs (s : State) (c : Nat) (l : Lane) :
    (homeBeatLane s.cfg s.homeSel (s.homeCnt + 1) c l).outs =
      if s.driven c then (applyLane s.cfg c l.ch.dir { l with ch := toggleOut l.ch }).outs else [] := by
  unfold homeBeatLane
  split <;> rfl

theorem homeBeat_eq (s : State) :
    homeBeat s = State.overLanesThenCommit { s with homeCnt := s.homeCnt + 1 }
      (homeBeatLane s.cfg s.homeSel (s.homeCnt + 1)) := rfl

theorem homeBeat_frame (s : State) :
    homeBeat s = { s with
      lanes := (homeBeat s).lanes, trace := (homeBeat s).trace, srLatch := (homeBeat s).srLatch
      homeCnt := s.homeCnt + 1 } :=
  State.overLanesThenCommit_frame { s with homeCnt := s.homeCnt + 1 } _

@[simp] theorem homeBeat_length (s : State) : (homeBeat s).lanes.length = s.lanes.length := by simp [homeBeat_eq]

theorem homeBeat_getElem? (s : State) (c : Nat) :
    (homeBeat s).lanes[c]? =
      s.lanes[c]?.map fun l => (homeBeatLane s.cfg s.homeSel (s.homeCnt + 1) c l).lane := by
  rw [homeBeat_eq, State.overLanesThenCommit_lanes, State.overLanes_getElem?]

theorem homeBeat_getElem?_of_driven {s : State} {c : Nat} {l : Lane} (h : s.driven c) (hl : s.lanes[c]? = some l) :
    (homeBeat s).lanes[c]? = some (applyLane s.cfg c l.ch.dir { l with ch := toggleOut l.ch }).lane := by
  rw [homeBeat_getElem?, hl, Option.map_some, homeBeatLane_of_driven h]

theorem homeBeat_getElem?_of_not_driven {s : State} {c : Nat} (h : ¬ s.driven c) :
    (homeBeat s).lanes[c]? = s.lanes[c]? := by
  simp [homeBeat_getElem?, homeBeatLane_of_not_driven h]

/-- Where no shift register is committed, a beat emits what `apply` emits for the driven lanes, in ascending order. -/
theorem homeBeat_of_not_shiftRegister {s : State} (h : s.cfg.backend ≠ .shiftRegister) :
    (homeBeat s).srLatch = s.srLatch ∧ (homeBeat s).trace = s.trace ++ (s.lanes.mapIdx fun c l =>
      if s.driven c then (applyLane s.cfg c l.ch.dir { l with ch := toggleOut l.ch }).outs else []).flatten := by
  rw [homeBeat_eq, State.overLanesThenCommit_of_not_shiftRegister (s := { s with homeCnt := s.homeCnt + 1 }) h]
  exact ⟨rfl, by simp only [State.overLanes_trace, homeBeatLane_outs]⟩

/-- A beat that drives some lane commits the shift register once, after all lanes (R205, R229). -/
theorem homeBeat_of_shiftRegister {s : State} {c : Nat} (h : s.cfg.backend = .shiftRegister) (hdriven : s.driven c)
    (hc : c < s.lanes.length) :
    (homeBeat s).srLatch = packOuts (homeBeat s).lanes ∧
      (homeBeat s).trace = s.trace ++ [.srCommit (packOuts (homeBeat s).lanes)] := by
  have hacted : State.anyActed { s with homeCnt := s.homeCnt + 1 }
      (homeBeatLane s.cfg s.homeSel (s.homeCnt + 1)) = true := by
    rw [State.anyActed_iff]
    exact ⟨c, s.lanes[c], List.getElem?_eq_getElem hc, by rw [homeBeatLane_of_driven hdriven, applyLane_acted]⟩
  obtain ⟨hlatch, htrace⟩ := State.overLanesThenCommit_of_acted (s := { s with homeCnt := s.homeCnt + 1 }) h hacted
  refine ⟨hlatch, htrace.trans ?_⟩
  simp [homeBeatLane_outs, applyLane_of_shiftRegister h, flatten_mapIdx_nil, homeBeat_eq]

/-- Settles O32: a driven lane is complemented and applied, any other stands, and the events follow the backend. -/
theorem homeBeatTogglesTheDrivenChannels : Obligations.HomeBeatTogglesTheDrivenChannels := by
  intro s hp hm hcnt
  refine ⟨homeBeat s, if_pos ((homeBeatEnabled_iff hp hm).mpr hcnt), homeBeat_frame s, homeBeat_length s,
    fun c l hl => ?_, fun hb => ?_, fun hb ⟨c, hsel, hc, hleft⟩ => homeBeat_of_shiftRegister hb ⟨hsel, hleft⟩ hc,
    fun hb => ?_⟩
  · by_cases hd : s.driven c
    · refine ⟨_, homeBeat_getElem?_of_driven hd hl, fun _ _ => ?_,
        fun hrest => hrest.elim (absurd hd.1) (absurd hd.2 ·.not_ge)⟩
      rw [applyLane_ch, applyLane_phase]
      exact ⟨rfl, rfl⟩
    · exact ⟨l, by rw [homeBeat_getElem?_of_not_driven hd, hl], fun hsel hleft => absurd ⟨hsel, hleft⟩ hd,
        fun _ => rfl⟩
  · have := homeBeat_of_not_shiftRegister (s := s) (by simp [hb])
    simpa only [applyLane_of_directPin hb, toggleOut, dirPinWrites_self, List.nil_append] using this
  · have := homeBeat_of_not_shiftRegister (s := s) (by simp [hb])
    simpa only [applyLane_of_hBridge hb, toggleOut] using this

/-! A run of beats and TICKs (R202): the registers it leaves alone, and the beats it counts. -/

theorem tick_frame (s : State) :
    tick s = { s with lanes := (tick s).lanes, trace := (tick s).trace, srLatch := (tick s).srLatch } :=
  s.overLanesThenCommit_frame _

@[simp] theorem tick_length (s : State) : (tick s).lanes.length = s.lanes.length := by simp [tick]

theorem iterate_tick_cfg (s : State) (k : Nat) : (tick^[k] s).cfg = s.cfg :=
  congrFun (Function.iterate_invariant (g := State.cfg) (funext fun s => by simp [tick]) k) s

/-- A run writes lanes, trace, latch and the count of beats (R202, R205, R207). -/
theorem homingRun_frame (s : State) (ops : List Bool) :
    homingRun s ops = { s with
      lanes := (homingRun s ops).lanes, trace := (homingRun s ops).trace, srLatch := (homingRun s ops).srLatch
      homeCnt := s.homeCnt + ops.count true } := by
  have frame : ∃ lanes trace latch, homingRun s ops =
      { s with lanes := lanes, trace := trace, srLatch := latch, homeCnt := s.homeCnt + ops.count true } := by
    induction ops using List.reverseRecOn with
    | nil => exact ⟨_, _, _, rfl⟩
    | append_singleton ops beat ih =>
      obtain ⟨lanes, trace, latch, h⟩ := ih
      cases beat with
      | false => exact ⟨_, _, _, by rw [homingRun_concat, h, List.count_append]; exact tick_frame _⟩
      | true => exact ⟨_, _, _, by rw [homingRun_concat, h, List.count_append]; exact homeBeat_frame _⟩
  obtain ⟨_, _, _, h⟩ := frame
  rw [h]

section homingRun

variable (s : State) (ops : List Bool)

@[simp] theorem homingRun_cfg : (homingRun s ops).cfg = s.cfg := by rw [homingRun_frame]

@[simp] theorem homingRun_powered : (homingRun s ops).powered = s.powered := by
  rw [homingRun_frame]

@[simp] theorem homingRun_mode : (homingRun s ops).mode = s.mode := by rw [homingRun_frame]

@[simp] theorem homingRun_homeSel : (homingRun s ops).homeSel = s.homeSel := by
  rw [homingRun_frame]

@[simp] theorem homingRun_homeCnt : (homingRun s ops).homeCnt = s.homeCnt + ops.count true :=
  by
  rw [homingRun_frame]

@[simp] theorem homingRun_length : (homingRun s ops).lanes.length = s.lanes.length := by
  induction ops using List.reverseRecOn with
  | nil => rfl
  | append_singleton ops beat ih =>
    rw [homingRun_concat]
    split <;> simp [ih]

end homingRun

theorem count_take_lt_of_getElem? {ops : List Bool} {k : Nat} {b : Bool} (hk : ops[k]? = some b) :
    (ops.take k).count b < ops.count b := by
  have hle := (List.take_sublist (k + 1) ops).count_le b
  rw [List.take_add_one, hk] at hle
  simpa using hle

/-- N(S) covers the transitions of every member of S (R202). -/
theorem le_homeBeats {cfg : Config} {sel : List Nat} {c : Nat} (hc : c ∈ sel) :
    cfg.homeTransitions.getD c 0 ≤ homeBeats cfg sel := by
  induction sel with
  | nil => cases hc
  | cons k sel ih =>
    rcases List.mem_cons.mp hc with rfl | hc
    · exact le_max_left ..
    · exact (ih hc).trans (le_max_right ..)

/-! The lanes along a run: an unselected one sees the TICKs only, a selected one the beats only (R205, R211). -/

/-- "For `c` not in `S` the sequence wrote nothing" (R211), whatever the TICKs do to that lane meanwhile. -/
theorem homingRun_getElem?_of_notMem {s t : State} {c : Nat} (hc : c ∉ s.homeSel) (hcfg : s.cfg = t.cfg)
    (hlane : s.lanes[c]? = t.lanes[c]?) (ops : List Bool) :
    (homingRun s ops).lanes[c]? = (tick^[ops.count false] t).lanes[c]? := by
  induction ops using List.reverseRecOn with
  | nil => exact hlane
  | append_singleton ops beat ih =>
    rw [homingRun_concat, List.count_append]
    cases beat with
    | false =>
      change (tick _).lanes[c]? = (tick^[ops.count false + 1] t).lanes[c]?
      rw [Function.iterate_succ_apply', tick_getElem?, tick_getElem?, ih, homingRun_cfg, iterate_tick_cfg, hcfg]
    | true =>
      change (homeBeat _).lanes[c]? = _
      rw [homeBeat_getElem?_of_not_driven (by simp [hc]), ih]
      rfl

/-- How many of the first `n` beats make a transition on channel `c` (R205). -/
abbrev transitionsIn (cfg : Config) (c n : Nat) : Nat := min n (cfg.homeTransitions.getD c 0)

theorem transitionsIn_succ (cfg : Config) (c n : Nat) :
    transitionsIn cfg c (n + 1) = transitionsIn cfg c n + if n + 1 ≤ cfg.homeTransitions.getD c 0 then 1 else 0 := by
  unfold transitionsIn
  split <;> omega

theorem iterate_toggleOut (n : Nat) (ch : Channel) :
    toggleOut^[n] ch = { ch with out := ch.out ^^ decide (n % 2 = 1) } := by
  induction n with
  | zero => simp
  | succ n ih =>
    rw [Function.iterate_succ_apply', ih, toggleOut]
    rcases Nat.mod_two_eq_zero_or_one n with h | h
    · have h' : (n + 1) % 2 = 1 := by omega
      simp [h, h']
    · have h' : (n + 1) % 2 = 0 := by omega
      simp [h, h']

theorem outChanges_concat (c : Nat) (s : State) (ops : List Bool) (beat : Bool) :
    outChanges c s (ops ++ [beat]) = outChanges c s ops +
      if ((homingRun s (ops ++ [beat])).chan c).out ≠ ((homingRun s ops).chan c).out then 1 else 0 := by
  have htake : ∀ k ≤ ops.length, (ops ++ [beat]).take k = ops.take k := fun k => List.take_append_of_le_length
  rw [outChanges, List.length_append, List.length_singleton, List.range_succ, List.countP_append, outChanges]
  congr 1
  · refine List.countP_congr fun k hk => ?_
    have hk := List.mem_range.mp hk
    rw [htake k hk.le, htake (k + 1) hk]
  · have hall : (ops ++ [beat]).take (ops.length + 1) = ops ++ [beat] := List.take_of_length_le (by simp)
    simp [htake, hall]

section member

variable {s : State} {c : Nat} {l : Lane} (hc : c ∈ s.homeSel) (hcnt : s.homeCnt = 0) (hl : s.lanes[c]? = some l)
  (hsilent : l.ch.curPeriod = 0)

include hc hcnt in
theorem driven_homingRun_iff (ops : List Bool) :
    (homingRun s ops).driven c ↔ ops.count true + 1 ≤ s.cfg.homeTransitions.getD c 0 := by
  rw [State.driven, homingRun_cfg, homingRun_homeSel, homingRun_homeCnt, hcnt, Nat.zero_add]
  exact and_iff_right hc

include hc hcnt hl hsilent

/-- TICKs leave a selected channel alone, and each beat that drives it complements its output (R181, R205). -/
theorem exists_homingRun_lane (ops : List Bool) :
    ∃ l', (homingRun s ops).lanes[c]? = some l' ∧
      l'.ch = toggleOut^[transitionsIn s.cfg c (ops.count true)] l.ch := by
  induction ops using List.reverseRecOn with
  | nil => exact ⟨l, hl, by simp⟩
  | append_singleton ops beat ih =>
    obtain ⟨l', hl', hch⟩ := ih
    rw [homingRun_concat, List.count_append]
    cases beat with
    | false =>
      have hsilent' : l'.ch.curPeriod = 0 := by rw [hch, iterate_toggleOut, hsilent]
      exact ⟨l', (tick_of_silent hl' hsilent').1, hch⟩
    | true =>
      change ∃ m, (homeBeat _).lanes[c]? = some m ∧ m.ch = toggleOut^[transitionsIn s.cfg c (ops.count true + 1)] l.ch
      rw [transitionsIn_succ]
      by_cases hd : (homingRun s ops).driven c
      · rw [if_pos ((driven_homingRun_iff hc hcnt ops).mp hd), Function.iterate_succ_apply', ← hch]
        exact ⟨_, homeBeat_getElem?_of_driven hd hl', applyLane_ch ..⟩
      · rw [if_neg (mt (driven_homingRun_iff hc hcnt ops).mpr hd)]
        exact ⟨l', (homeBeat_getElem?_of_not_driven hd).trans hl', hch⟩

theorem homingRun_chan (ops : List Bool) :
    (homingRun s ops).chan c = toggleOut^[transitionsIn s.cfg c (ops.count true)] l.ch := by
  obtain ⟨l', hl', hch⟩ := exists_homingRun_lane hc hcnt hl hsilent ops
  rw [State.chan_of_getElem? hl', hch]

/-- R211: along a run the output of a selected channel changes in exactly the beats that drive it. -/
theorem outChanges_eq (ops : List Bool) : outChanges c s ops = transitionsIn s.cfg c (ops.count true) := by
  induction ops using List.reverseRecOn with
  | nil => simp [outChanges]
  | append_singleton ops beat ih =>
    rw [outChanges_concat, ih, homingRun_chan hc hcnt hl hsilent, homingRun_chan hc hcnt hl hsilent, List.count_append]
    cases beat with
    | false => simp
    | true =>
      simp only [List.count_singleton_self, transitionsIn_succ]
      split
      · simp [Function.iterate_succ_apply', toggleOut]
      · simp

end member

/-! The events of one channel in the trace of a run (R205, R220). -/

/-- From `s` to `t` the trace grows, by exactly `n` events that meet `p`. -/
def AddsEvents (p : Output → Bool) (n : Nat) (s t : State) : Prop :=
  ∃ outs, t.trace = s.trace ++ outs ∧ outs.countP p = n

theorem AddsEvents.refl (p : Output → Bool) (s : State) : AddsEvents p 0 s s := ⟨[], by simp⟩

theorem AddsEvents.trans {p : Output → Bool} {m n : Nat} {s t u : State} (hst : AddsEvents p m s t)
    (htu : AddsEvents p n t u) : AddsEvents p (m + n) s u := by
  obtain ⟨outs, htrace, rfl⟩ := hst
  obtain ⟨outs', htrace', rfl⟩ := htu
  exact ⟨outs ++ outs', by rw [htrace', htrace, List.append_assoc], List.countP_append⟩

theorem AddsEvents.countP_drop {p : Output → Bool} {n : Nat} {s t : State} (h : AddsEvents p n s t) :
    (t.trace.drop s.trace.length).countP p = n := by
  obtain ⟨outs, htrace, hcount⟩ := h
  rw [htrace, List.drop_left, hcount]

/-- `p` tells the calls of `apply(c)` under `cfg`: one event of each meets it, none that drives other pins than those of
channel `c`, and none of a direction pin. -/
structure TellsApply (cfg : Config) (c : Nat) (p : Output → Bool) : Prop where
  other : ∀ o, o.drives c = false → p o = false
  dirPin : ∀ k level, p (.pinWrite (.dir k) level) = false
  apply : ∀ l : Lane, (applyLane cfg c l.ch.dir l).outs.countP p = 1

theorem tellsApply_isStepWrite {cfg : Config} (h : cfg.backend = .directPin) (c : Nat) :
    TellsApply cfg c (Output.isStepWrite c) where
  other o ho := by
    match o with
    | .pinWrite (.step _) _ => exact ho
    | .pinWrite (.dir _) _ | .srCommit _ | .bridgeWrite _ _ | .txBytes _ => rfl
  dirPin _ _ := rfl
  apply l := by simp [applyLane_of_directPin h, Output.isStepWrite]

theorem tellsApply_isBridgeWrite {cfg : Config} (h : cfg.backend = .hBridge) (c : Nat) :
    TellsApply cfg c (Output.isBridgeWrite c) where
  other o ho := by
    match o with
    | .bridgeWrite _ _ => exact ho
    | .pinWrite _ _ | .srCommit _ | .txBytes _ => rfl
  dirPin _ _ := rfl
  apply l := by simp [applyLane_of_hBridge h, Output.isBridgeWrite]

/-- Where the other indices yield nothing that is counted, the joined result counts what index `c` yields. -/
theorem countP_flatten_mapIdx {α β : Type} {p : β → Bool} {c : Nat} {g : Nat → α → List β}
    (hg : ∀ k a, k ≠ c → ∀ b ∈ g k a, p b = false) {xs : List α} {x : α} (hx : xs[c]? = some x) :
    (xs.mapIdx g).flatten.countP p = (g c x).countP p := by
  have hother : ∀ k a, k ≠ c → (g k a).filter p = [] := fun k a hk => by simpa using hg k a hk
  have hmap : (xs.mapIdx g).map (List.filter p) = xs.mapIdx fun k a => (g k a).filter p :=
    List.ext_getElem (by simp) fun _ _ _ => by simp
  rw [List.countP_eq_length_filter, List.filter_flatten, hmap,
    flatten_mapIdx_of_only (g := fun k a => (g k a).filter p) hother, hx, Option.map_some, Option.getD_some,
    List.countP_eq_length_filter]

section tellsApply

variable {p : Output → Bool} {c : Nat} {s : State}

/-- An operation that emits direction-pin events only adds none that `p` counts (R203, R206). -/
theorem addsEvents_overLanes (hp : TellsApply s.cfg c p) {f : Nat → Lane → LaneResult}
    (hf : ∀ k l, ∀ o ∈ (f k l).outs, ∃ k b, o = .pinWrite (.dir k) b) : AddsEvents p 0 s (s.overLanes f) := by
  refine ⟨_, rfl, List.countP_eq_zero.mpr fun o ho => ?_⟩
  simp only [List.mem_flatten, List.mem_mapIdx] at ho
  obtain ⟨_, ⟨k, hk, rfl⟩, ho⟩ := ho
  obtain ⟨k, b, rfl⟩ := hf _ _ o ho
  simp [hp.dirPin]

theorem addsEvents_homeBegin (hp : TellsApply s.cfg c p) (sel : List Nat) : AddsEvents p 0 s (homeBegin sel s) := by
  refine addsEvents_overLanes hp fun k l o ho => ?_
  rw [homeBeginLane_outs] at ho
  split at ho
  · exact eq_dirPin_of_mem_dirUpdate ho
  · cases ho

theorem addsEvents_homeEnd (hp : TellsApply s.cfg c p) : AddsEvents p 0 s (homeEnd s) := by
  refine addsEvents_overLanes hp fun k l o ho => ?_
  rw [homeEndLane_outs] at ho
  split at ho
  · exact eq_dirPin_of_mem_dirUpdate ho
  · cases ho

theorem addsEvents_tick (hp : TellsApply s.cfg c p) {l : Lane} (hl : s.lanes[c]? = some l)
    (hsilent : l.ch.curPeriod = 0) : AddsEvents p 0 s (tick s) := by
  obtain ⟨-, outs, htrace, houts⟩ := tick_of_silent hl hsilent
  exact ⟨outs, htrace, List.countP_eq_zero.mpr fun o ho => by simp [hp.other o (houts o ho)]⟩

theorem addsEvents_homeBeat (hp : TellsApply s.cfg c p) {l : Lane} (hl : s.lanes[c]? = some l) :
    AddsEvents p (if s.driven c then 1 else 0) s (homeBeat s) := by
  obtain ⟨commits, hcommits, htrace⟩ := State.exists_overLanesThenCommit_trace { s with homeCnt := s.homeCnt + 1 }
    (homeBeatLane s.cfg s.homeSel (s.homeCnt + 1))
  refine ⟨_, htrace, ?_⟩
  have hcommits : commits.countP p = 0 := List.countP_eq_zero.mpr fun o ho => by
    obtain ⟨word, rfl⟩ := hcommits o ho
    simp [hp.other (.srCommit word) rfl]
  have hother : ∀ k l, k ≠ c → ∀ o ∈ (homeBeatLane s.cfg s.homeSel (s.homeCnt + 1) k l).outs, p o = false := by
    intro k l hk o ho
    rw [homeBeatLane_outs] at ho
    split at ho
    · exact hp.other o (applyLane_outs_drive hk _ _ o ho)
    · cases ho
  rw [List.countP_append, hcommits, countP_flatten_mapIdx hother hl, homeBeatLane_outs]
  split
  · exact hp.apply { l with ch := toggleOut l.ch }
  · rfl

/-- Along a run channel `c` gets one `apply` for each beat that drives it and no other (R205, R211). -/
theorem addsEvents_homingRun (hp : TellsApply s.cfg c p) {l : Lane} (hc : c ∈ s.homeSel) (hcnt : s.homeCnt = 0)
    (hl : s.lanes[c]? = some l) (hsilent : l.ch.curPeriod = 0) (ops : List Bool) :
    AddsEvents p (transitionsIn s.cfg c (ops.count true)) s (homingRun s ops) := by
  induction ops using List.reverseRecOn with
  | nil => simpa using AddsEvents.refl p s
  | append_singleton ops beat ih =>
    obtain ⟨l', hl', hch⟩ := exists_homingRun_lane hc hcnt hl hsilent ops
    have hp' : TellsApply (homingRun s ops).cfg c p := by rwa [homingRun_cfg]
    rw [homingRun_concat, List.count_append]
    cases beat with
    | false =>
      exact ih.trans (addsEvents_tick hp' hl' (by rw [hch, iterate_toggleOut, hsilent]))
    | true =>
      have hbeat := addsEvents_homeBeat hp' hl'
      simp only [driven_homingRun_iff hc hcnt] at hbeat
      rw [List.count_singleton_self, transitionsIn_succ]
      exact ih.trans hbeat

end tellsApply

/-- Settles O35: a member of S sees the N beats alone, of which those up to its own number toggle it, and any other
channel sees the TICKs alone. -/
theorem resetSequenceReachesTheReadyState : Obligations.ResetSequenceReachesTheReadyState := by
  intro s sel ops hpow hsel hbeats
  refine ⟨fun k hk => ?_, ?_, fun k c l hc hl => ?_, rfl, rfl, rfl, fun c hc => ?_, fun c l hc hl => ?_⟩
  · rw [homeBeatEnabled_iff (by simpa) (by simp)]
    simpa [← hbeats] using count_take_lt_of_getElem? hk
  · rw [homeEndEnabled_iff (by simpa) (by simp)]
    simp [hbeats]
  · have hlt : c < s.lanes.length := by simpa using (List.getElem?_eq_some_iff.mp hl).1
    have hbegin := homeBegin_getElem?_of_mem hc (List.getElem?_eq_getElem hlt)
    obtain ⟨l', hl', hch⟩ := exists_homingRun_lane hc rfl hbegin rfl (ops.take k)
    obtain rfl : l' = l := Option.some_inj.mp (hl'.symm.trans hl)
    rw [hch, iterate_toggleOut]
    exact ⟨rfl, rfl⟩
  · rw [homeEnd_getElem?_of_notMem (by simpa)]
    exact homingRun_getElem?_of_notMem hc (homeBegin_cfg sel s) (homeBegin_getElem?_of_notMem hc s) ops
  · have hall : transitionsIn s.cfg c (ops.count true) = s.cfg.homeTransitions.getD c 0 :=
      min_eq_right (hbeats ▸ le_homeBeats hc)
    have hbegin := homeBegin_getElem?_of_mem hc hl
    obtain ⟨l', hl', hch⟩ := exists_homingRun_lane hc rfl hbegin rfl ops
    have hcount : ∀ p, TellsApply s.cfg c p → ((homeEnd (homingRun (homeBegin sel s) ops)).trace.drop
        s.trace.length).countP p = s.cfg.homeTransitions.getD c 0 := fun p hp => by
      have hrun := addsEvents_homingRun (s := homeBegin sel s) hp hc rfl hbegin rfl ops
      have hend := addsEvents_homeEnd (s := homingRun (homeBegin sel s) ops) (by rwa [homingRun_cfg])
      simpa [hall] using (((addsEvents_homeBegin hp sel).trans hrun).trans hend).countP_drop
    refine ⟨_, homeEnd_getElem?_of_mem (by simpa) hl', ?_⟩
    rw [hch, homeBegin_cfg, hall, iterate_toggleOut]
    exact ⟨rfl, rfl, rfl, rfl, rfl, rfl, rfl, rfl, (outChanges_eq hc rfl hbegin rfl ops).trans hall,
      fun hb => hcount _ (tellsApply_isStepWrite hb c), fun hb => hcount _ (tellsApply_isBridgeWrite hb c)⟩

end Sys2Proof.Machine

/-! PROOF. O48, O49: the packed word bit by bit (R228), and the rows of the summary of the three backends (R238). -/

namespace Sys2Proof.Machine

/-! The packed word (R228). -/

/-- A lane more puts its output below the bits of the lanes after it. -/
theorem packOuts_cons (l : Lane) (rest : List Lane) : packOuts (l :: rest) = Nat.bit l.ch.out (packOuts rest) := by
  rw [packOuts, Nat.bit_val, Nat.add_comm]

/-- Settles O49: a lane's index counts the lanes packed below it, and the word has no bit past the last lane. -/
theorem packedBitIsTheChannelsOutput : Obligations.PackedBitIsTheChannelsOutput := by
  refine ⟨fun lanes => ?_, fun lanes i hi => ?_⟩
  · induction lanes with
    | nil => simp
    | cons first rest ih =>
      intro c l hl
      rw [packOuts_cons]
      cases c with
      | zero =>
        obtain rfl : first = l := by simpa using hl
        exact Nat.testBit_bit_zero ..
      | succ c =>
        rw [Nat.testBit_bit_succ]
        exact ih c l hl
  · exact Nat.testBit_lt_two_pow ((packOuts_lt lanes).trans_le (Nat.pow_le_pow_right two_pos hi))

/-! The calls, where the facts above leave a case open (R225, R229). -/

theorem dirPinWrites_of_ne {level now : Dir} (h : level ≠ now) (c : Nat) :
    dirPinWrites c level now = [.pinWrite (.dir c) now.level] := if_neg h

theorem dirUpdate_of_directPin {cfg : Config} (h : cfg.backend = .directPin) (c : Nat) (level now : Dir) :
    dirUpdate cfg c level now = dirPinWrites c level now := by
  rw [dirUpdate_eq, if_pos h]

theorem dirUpdate_of_not_directPin {cfg : Config} (h : cfg.backend ≠ .directPin) (c : Nat) (level now : Dir) :
    dirUpdate cfg c level now = [] := by
  rw [dirUpdate_eq, if_neg h]

theorem commitBatch_of_shiftRegister {s : State} (h : s.cfg.backend = .shiftRegister) :
    commitBatch s = { s with srLatch := packOuts s.lanes, trace := s.trace ++ [.srCommit (packOuts s.lanes)] } := by
  simp [commitBatch, h, State.emit]

theorem commitBatch_of_not_shiftRegister {s : State} (h : s.cfg.backend ≠ .shiftRegister) : commitBatch s = s := by
  obtain ⟨hb, -⟩ | ⟨-, hsame⟩ := commitBatch_cases s
  · exact absurd hb h
  · exact hsame

/-- Settles O48, a row of R238 after the other. -/
theorem backendCallsFollowTheSummary : Obligations.BackendCallsFollowTheSummary := by
  intro cfg c level now l s
  refine ⟨fun hb => ?_, fun hb => ?_, fun hb => ?_, commitBatch_of_shiftRegister, commitBatch_of_not_shiftRegister⟩
  · rw [applyLane_of_directPin hb, dirUpdate_of_directPin hb]
    refine ⟨rfl, fun hd => ?_, fun hd => ?_, fun hd => ?_, fun hd => dirPinWrites_of_ne hd c⟩
    · simp [hd]
    · simp [dirPinWrites_of_ne hd]
    · rw [hd, dirPinWrites_self]
  · exact ⟨applyLane_of_shiftRegister hb c level l, dirUpdate_of_not_directPin (by simp [hb]) c level now⟩
  · refine ⟨dirUpdate_of_not_directPin (by simp [hb]) c level now, fun hd => ?_, fun hd => ?_⟩ <;>
      rw [applyLane_of_hBridge hb, hd, nextPhase]

end Sys2Proof.Machine

/-! PROOF. O60: every step from a state in order answers a next state (R250). A refusal needs a configuration that breaks
R8, which POWER_ON alone looks at (R284), or a completed frame with an address the parser never accepts (R148). -/

namespace Sys2Proof

@[simp] theorem messageOf_target (target sub : Byte) (body : List Byte) : (messageOf target sub body).target = target := by
  cases body <;> rfl

@[simp] theorem messageOf_sub (target sub : Byte) (body : List Byte) : (messageOf target sub body).sub = sub := by
  cases body <;> rfl

namespace Machine

/-- A frame is completed in LEN or BODY only, where both its addresses have been accepted (R122 to R125). -/
theorem ParserOk.heldMessage_accepted {s : State} (hs : ParserOk s) {b : Byte} (hdone : (parseByte b s).2 = true) :
    targetAccepted s.cfg (heldMessage (parseByte b s).1).target = true ∧
    subAccepted s.cfg (heldMessage (parseByte b s).1).sub = true := by
  cases hp : s.pstate with
  | seek =>
    rw [parseByte_seek b hp] at hdone
    cases hdone
  | target =>
    rw [parseByte_target b hp] at hdone
    cases hdone
  | sub =>
    rw [parseByte_sub b hp] at hdone
    cases hdone
  | len =>
    rw [parseByte_len b hp, heldMessage, messageOf_target, messageOf_sub]
    exact ⟨hs.target_accepted (.inr (.inl hp)), hs.sub_accepted (.inl hp)⟩
  | body =>
    rw [parseByte_body b hp, heldMessage, messageOf_target, messageOf_sub]
    exact ⟨hs.target_accepted (.inr (.inr hp)), hs.sub_accepted (.inr hp)⟩

/-- A byte in a parser in order answers a next state: a frame it completes is one the dispatcher takes (R148, R152). -/
theorem exists_exec_rxByte_next {s : State} (hv : s.cfg.valid = true) (hs : ParserOk s) (b : Byte) :
    ∃ t, exec (.rxByte b) s = .next t := by
  simp only [exec, execRxByte]
  split
  · split
    · next hdone =>
      obtain ⟨htarget, hsub⟩ := hs.heldMessage_accepted hdone
      rw [← (parseByte_cfg_trace b s).1] at hv htarget hsub
      obtain ⟨-, t, -, hhand, -⟩ := dispatchIsTotal _ _ hv htarget hsub
      exact ⟨t, hhand⟩
    · exact ⟨_, rfl⟩
  · exact ⟨_, rfl⟩

/-! TICK, HOME_BEAT and HOME_END answer a next state whether enabled or not (R180, R204; log entry 5). -/

theorem exists_exec_tick_next (s : State) : ∃ t, exec .tick s = .next t := by
  simp only [exec, execTick]
  split <;> exact ⟨_, rfl⟩

theorem exists_exec_homeBeat_next (s : State) : ∃ t, exec .homeBeat s = .next t := by
  simp only [exec, execHomeBeat]
  split <;> exact ⟨_, rfl⟩

theorem exists_exec_homeEnd_next (s : State) : ∃ t, exec .homeEnd s = .next t := by
  simp only [exec, execHomeEnd]
  split <;> exact ⟨_, rfl⟩

/-- POWER_ON refuses nothing but a configuration that breaks R8 (R284). -/
theorem exists_exec_powerOn_next {s : State} (hv : s.cfg.valid = true) : ∃ t, exec .powerOn s = .next t := by
  simp only [exec, execPowerOn, hv, if_true]
  split <;> exact ⟨_, rfl⟩

/-- MAIN's turn answers a next state: a homing member, the oldest byte of the queue, or nothing (R71, R120, R204). -/
theorem exists_mainTurn_next {s : State} (hv : s.cfg.valid = true) (hs : ParserOk s) : ∃ t, mainTurn s = .next t := by
  unfold mainTurn
  split
  · split
    · exact exists_exec_homeBeat_next s
    · exact exists_exec_homeEnd_next s
  · split
    · exact ⟨_, rfl⟩
    · next b rest _ => exact exists_exec_rxByte_next (s := { s with rxQueue := rest }) hv { hs with } b

/-- Whichever agent's turn it is, it answers a next state (R6, R72). -/
theorem exists_runTurn_next {s : State} (hv : s.cfg.valid = true) (hs : ParserOk s) (turn : Turn) :
    ∃ t, runTurn turn s = .next t := by
  cases turn with
  | host b => exact ⟨_, rfl⟩
  | main => exact exists_mainTurn_next hv hs
  | tick => exact exists_exec_tick_next s

/-- Settles O60: POWER_ON accepts the valid configuration, and taking a turn from the environment leaves the configuration
and the parser as they were, so whichever turn it is answers. -/
theorem blockNeverHalts : Obligations.BlockNeverHalts := by
  intro s hs
  simp only [step, runNext]
  split
  · split
    · next turn rest _ => exact exists_runTurn_next (s := { s with schedule := rest }) hs.config { hs.parser with } turn
    · exact exists_runTurn_next (s := s.drawFree) hs.config { hs.parser with } _
  · exact exists_exec_powerOn_next hs.config

end Machine

end Sys2Proof

/-! PROOF. O2: what POWER_ON writes to the registers and the trace (R280 to R282), and that no operation takes it
back. -/

namespace Sys2Proof.Machine

/-! POWER_ON is not taken back (R280): every operation keeps `powered`, POWER_ON sets it. -/

/-- No effect of a command writes `powered`. -/
theorem CommandEffect.powered_eq {s t : State} (h : CommandEffect s t) : t.powered = s.powered := by
  cases h <;> rfl

@[simp] theorem parseByte_powered (b : Byte) (s : State) : (parseByte b s).1.powered = s.powered := by
  rw [parseByte_frame]

@[simp] theorem homeBeat_powered (s : State) : (homeBeat s).powered = s.powered := by rw [homeBeat_frame]

@[simp] theorem tick_powered (s : State) : (tick s).powered = s.powered := by rw [tick_frame]

/-- `power_on_commit()` writes the latch and the trace (R282). -/
theorem powerOnCommit_frame (s : State) :
    powerOnCommit s = { s with srLatch := 0, trace := (powerOnCommit s).trace } := by
  unfold powerOnCommit
  split <;> rfl

/-- The startup homing adds to the registers of POWER_ON what HOME_BEGIN writes (R203, R281). -/
theorem powerOn_frame (s : State) :
    powerOn s = { powerOnRegisters s with
      lanes := (powerOn s).lanes
      srLatch := 0
      mode := if s.cfg.homeAtStartup then .homing else .run
      homeSel := if s.cfg.homeAtStartup then allChannels s.cfg else []
      trace := (powerOn s).trace } := by
  unfold powerOn
  rw [powerOnCommit_frame]
  split <;> rfl

@[simp] theorem powerOn_powered (s : State) : (powerOn s).powered = true := by
  rw [powerOn_frame]
  rfl

/-- A received byte leaves `powered`: the parser's work does, and so does the command it completes (R126, R131). -/
theorem exec_rxByte_powered {b : Byte} {s t : State} (h : exec (.rxByte b) s = .next t) : t.powered = s.powered := by
  obtain ⟨-, rfl⟩ | ⟨-, -, rfl⟩ | ⟨-, -, _, -, -, -, effect⟩ := execRxByte_cases h
  · rfl
  · exact parseByte_powered b s
  · exact effect.powered_eq.trans (parseByte_powered b s)

/-- "It occurs once" (R280), operation by operation. -/
theorem exec_keeps_powered {i : Instr} {s t : State} (hp : s.powered = true) (h : exec i s = .next t) :
    t.powered = true := by
  cases i with
  | rxByte b => rw [exec_rxByte_powered h, hp]
  | tick =>
    simp only [exec, execTick] at h
    split at h <;> cases h <;> simpa using hp
  | homeBegin sel =>
    simp only [exec, execHomeBegin] at h
    split at h <;> cases h
    exact hp
  | homeBeat =>
    simp only [exec, execHomeBeat] at h
    split at h <;> cases h <;> simpa using hp
  | homeEnd =>
    simp only [exec, execHomeEnd] at h
    split at h <;> cases h <;> exact hp
  | powerOn =>
    simp only [exec, execPowerOn, hp, if_true] at h
    cases h
    exact hp
  | _ => rw [(exec_command_effect rfl h).powered_eq, hp]

/-- On an unpowered block POWER_ON answers its own next state only. -/
theorem eq_powerOn_of_exec_powerOn {s t : State} (hp : s.powered = false) (h : exec .powerOn s = .next t) :
    t = powerOn s := by
  simp only [exec, execPowerOn, hp, Bool.false_eq_true, if_false] at h
  split at h <;> cases h
  rfl

theorem TurnTaken.powered_eq {s u : State} {turn : Turn} (h : TurnTaken s turn u) : u.powered = s.powered := by
  cases h <;> rfl

/-- After every step the block is powered: an unpowered one runs POWER_ON, a powered one an operation that keeps it
(R280). -/
theorem powered_of_step {s t : State} (h : step s = .next t) : t.powered = true := by
  obtain ⟨hp, hexec⟩ | ⟨hp, turn, u, taken, hturn⟩ := step_cases h
  · rw [eq_powerOn_of_exec_powerOn hp hexec, powerOn_powered]
  · have hu : u.powered = true := taken.powered_eq.trans hp
    obtain ⟨b, -, rfl⟩ | ⟨-, htick⟩ | ⟨-, -, -, hbeat⟩ | ⟨-, -, -, hend⟩ | ⟨-, -, -, rfl⟩ | ⟨-, -, b, rest, -, hrx⟩ :=
      hturn
    · exact hu
    · exact exec_keeps_powered hu htick
    · exact exec_keeps_powered hu hbeat
    · exact exec_keeps_powered hu hend
    · exact hu
    · exact exec_keeps_powered (s := { u with rxQueue := rest }) hu hrx

/-! POWER_ON on an unpowered block with a valid configuration (R280, R284). -/

theorem exec_powerOn_of_unpowered {s : State} (hp : s.powered = false) (hv : s.cfg.valid = true) :
    exec .powerOn s = .next (powerOn s) := by
  simp [exec, execPowerOn, hp, hv]

theorem step_of_unpowered {s : State} (hp : s.powered = false) : step s = exec .powerOn s := by
  simp [step, runNext, hp]

/-! The lanes and the events of the startup homing (R203, R281). -/

/-- Work on the lanes of R41 is work on one zeroed record a channel. -/
theorem mapIdx_initialLanes {α : Type} (cfg : Config) (f : Nat → Lane → α) :
    (initialLanes cfg).mapIdx f = (List.range cfg.nch).map fun c => f c ⟨Channel.initial cfg c, 0⟩ :=
  List.ext_getElem (by simp) (by simp)

/-- The startup homing turns the zeroed records to REVERSE and changes nothing else in them. -/
theorem powerOn_lanes (s : State) :
    (powerOn s).lanes = (List.range s.cfg.nch).map fun c =>
      ⟨{ Channel.initial s.cfg c with dir := if s.cfg.homeAtStartup then .reverse else .forward }, 0⟩ := by
  unfold powerOn
  cases s.cfg.homeAtStartup
  · simp [initialLanes, Channel.initial]
  · simp [mapIdx_initialLanes, homeBeginLane_lane, allChannels, Channel.initial]

/-- The direction pins the startup homing raises: all of them in the direct-pin backend, whose records start FORWARD
(R225). -/
def startupDirPins (cfg : Config) : List Pin :=
  if cfg.backend = .directPin ∧ cfg.homeAtStartup = true then (List.range cfg.nch).map .dir else []

theorem step_notMem_startupDirPins (cfg : Config) (c : Nat) : .step c ∉ startupDirPins cfg := by
  unfold startupDirPins
  split <;> simp

theorem dir_mem_startupDirPins_iff (cfg : Config) (c : Nat) :
    .dir c ∈ startupDirPins cfg ↔ cfg.backend = .directPin ∧ cfg.homeAtStartup = true ∧ c < cfg.nch := by
  unfold startupDirPins
  split
  · next h => simp [h]
  · next h => simpa using fun hb hh => absurd ⟨hb, hh⟩ h

/-- HOME_BEGIN over all channels, as the startup homing runs it, emits the rise of each direction pin (R203, R281). -/
theorem homeBegin_initialLanes_outs (cfg : Config) :
    ((initialLanes cfg).mapIdx fun c l => (homeBeginLane cfg (allChannels cfg) c l).outs).flatten =
      if cfg.backend = .directPin then (List.range cfg.nch).map fun c => .pinWrite (.dir c) true else [] := by
  have houts : ∀ c ∈ List.range cfg.nch,
      (homeBeginLane cfg (allChannels cfg) c ⟨Channel.initial cfg c, 0⟩).outs =
        if cfg.backend = .directPin then [.pinWrite (.dir c) true] else [] := by
    intro c hc
    rw [homeBeginLane_outs, allChannels, if_pos hc, dirUpdate_reverse]
    simp [Channel.initial]
  rw [mapIdx_initialLanes, List.map_congr_left houts]
  split
  · exact List.map_eq_flatMap.symm
  · simp

/-- The trace of POWER_ON: the power-on commit, then the rising direction pins of the startup homing (R281, R282). -/
theorem powerOn_trace (s : State) :
    (powerOn s).trace =
      (powerOnCommit (powerOnRegisters s)).trace ++ (startupDirPins s.cfg).map fun pin => .pinWrite pin true := by
  unfold powerOn startupDirPins
  cases s.cfg.homeAtStartup with
  | false => simp
  | true =>
    simp only [if_true, homeBegin_trace, powerOnCommit_lanes, powerOnCommit_cfg, powerOnRegisters_lanes,
      powerOnRegisters_cfg, homeBegin_initialLanes_outs]
    split <;> simp [*]

/-! The levels after a run of rising pins (R224). -/

theorem pinLevel_append_map_rise (pin : Pin) (pins : List Pin) (trace : List Output) :
    pinLevel pin (trace ++ pins.map fun p => .pinWrite p true) = (decide (pin ∈ pins) || pinLevel pin trace) := by
  induction pins generalizing trace with
  | nil => simp
  | cons p pins ih =>
    rw [List.map_cons, List.append_cons, ih, pinLevel_pinWrite]
    by_cases h : p = pin
    · simp [h]
    · simp [h, Ne.symm h]

/-- POWER_ON leaves every bridge pin at 0: the commit does, and the startup homing drives no bridge (R235, R282). -/
theorem bridgeLevel_powerOn (s : State) (c : Nat) : bridgeLevel c (powerOn s).trace = 0 := by
  obtain ⟨hbridge, -⟩ := powerOnCommit_levels (powerOnRegisters s) rfl c (.step c)
  rw [powerOn_trace, bridgeLevel_append (by simp [Output.isBridgeWrite]), hbridge]

/-- POWER_ON leaves every pin at 0 but those the startup homing raises (R281, R282). -/
theorem pinLevel_powerOn (s : State) (pin : Pin) :
    pinLevel pin (powerOn s).trace = decide (pin ∈ startupDirPins s.cfg) := by
  obtain ⟨-, hpin⟩ := powerOnCommit_levels (powerOnRegisters s) rfl 0 pin
  rw [powerOn_trace, pinLevel_append_map_rise, hpin, Bool.or_false]

/-- Settles O2: POWER_ON's registers by its frame and its lanes, the levels by the pins it raises. -/
theorem powerOnWritesTheInitialRecordsAndCommits : Obligations.PowerOnWritesTheInitialRecordsAndCommits := by
  refine ⟨fun _ _ _ => exec_keeps_powered, fun _ _ => powered_of_step, fun s hp hv => ?_⟩
  have hexec := exec_powerOn_of_unpowered hp hv
  have htrace := powerOn_trace s
  have hbridge := bridgeLevel_powerOn s
  have hpin := pinLevel_powerOn s
  refine ⟨powerOn s, hexec, (step_of_unpowered hp).trans hexec, ?_⟩
  rw [powerOn_frame]
  refine ⟨rfl, rfl, rfl, powerOn_lanes s, rfl, rfl, rfl, rfl, powerOnRegisters_fBody_length s, rfl, rfl,
    htrace.trans ?_, fun c => ⟨hbridge c, (hpin (.step c)).trans ?_, (hpin (.dir c)).trans ?_⟩⟩
  · cases hb : s.cfg.backend with
    | directPin => cases hh : s.cfg.homeAtStartup <;> simp [startupDirPins, powerOnCommit, hb, hh]
    | shiftRegister | hBridge => simp [startupDirPins, powerOnCommit, hb]
  · simp [step_notMem_startupDirPins]
  · simp [dir_mem_startupDirPins_iff, Bool.and_assoc]

end Sys2Proof.Machine

/-! PROOF. O42 to O46: the frame of a command decodes to it and nothing else does (R90 to R98), the parser's byte machine
runs a frame as the command it stands for (R120 to R128), and it skips noise in SEEK (R121). -/

namespace Sys2Proof

/-! The encoder as one shape (R90): the frame of a command, and what its Message decodes to. -/

/-- The frame to `target` and `sub` with body `body` is one the parser accepts, and its Message is command `i`. -/
structure IsFrameOf (cfg : Config) (i : Instr) (target sub : Byte) (body : List Byte) : Prop where
  target_accepted : targetAccepted cfg target = true
  sub_accepted : subAccepted cfg sub = true
  length_le : body.length ≤ 255
  decodes : decodeMessage cfg (messageOf target sub body) = .ok i

theorem payloadFits_iff (payload : List Byte) : payloadFits payload = true ↔ payload.length ≤ 254 := by
  simp [payloadFits]

theorem decodeSystem_opcSysReset {cfg : Config} (hv : cfg.valid = true) (sub : Byte) (payload : List Byte) :
    decodeSystem cfg sub cfg.opcSysReset payload = .sysReset sub payload := by
  have hd := Config.systemOpcodes_nodup hv
  simp only [Config.systemOpcodes, List.nodup_cons, List.mem_cons, not_or] at hd
  obtain ⟨⟨-, hping, -⟩, -⟩ := hd
  simp [decodeSystem, Ne.symm hping]

theorem decodeDevice_opcDevReset (cfg : Config) (c : Nat) (payload : List Byte) :
    decodeDevice cfg c cfg.opcDevReset payload = .devReset c payload :=
  if_pos rfl

theorem decodeDevice_opcDevBendPitch {cfg : Config} (hv : cfg.valid = true) (c : Nat) (payload : List Byte) :
    decodeDevice cfg c cfg.opcDevBendPitch payload = .devBendPitch c payload := by
  have hd := Config.deviceOpcodes_nodup hv
  simp only [Config.deviceOpcodes, List.nodup_cons, List.mem_cons, not_or] at hd
  obtain ⟨⟨-, -, hreset, -⟩, ⟨-, hoff, -⟩, ⟨hon, -⟩, -⟩ := hd
  simp [decodeDevice, Ne.symm hreset, Ne.symm hoff, Ne.symm hon]

theorem decodeDevice_opcDevSetTargetColor {cfg : Config} (hv : cfg.valid = true) (c : Nat) (payload : List Byte) :
    decodeDevice cfg c cfg.opcDevSetTargetColor payload = .devSetTargetColor c payload := by
  have hd := Config.deviceOpcodes_nodup hv
  simp only [Config.deviceOpcodes, List.nodup_cons, List.mem_cons, not_or] at hd
  obtain ⟨⟨-, -, -, -, hreset, -⟩, ⟨-, -, -, hoff, -⟩, ⟨-, -, hon, -⟩, ⟨-, hbend, -⟩, ⟨hmove, -⟩, -⟩ := hd
  simp [decodeDevice, Ne.symm hreset, Ne.symm hoff, Ne.symm hon, Ne.symm hbend, Ne.symm hmove]

/-- A command byte the device space does not name reaches its fallback (R98, R150). -/
theorem decodeDevice_of_notMem {cfg : Config} {op : Byte} (hop : op ∉ cfg.deviceOpcodes) (c : Nat)
    (payload : List Byte) : decodeDevice cfg c op payload = .devFallback c op payload := by
  simp only [Config.deviceOpcodes, List.mem_cons, not_or] at hop
  obtain ⟨hreset, hoff, hon, hbend, hmove, hcolour, -⟩ := hop
  simp [decodeDevice, hreset, hoff, hon, hbend, hmove, hcolour]

section isFrameOf

variable {cfg : Config} {i : Instr} {op : Byte} {payload : List Byte}

theorem isFrameOf_system {sub : Byte} (hs : subAccepted cfg sub = true) (hp : payloadFits payload = true)
    (hd : decodeSystem cfg sub op payload = i) : IsFrameOf cfg i systemAddress sub (op :: payload) where
  target_accepted := (targetAccepted_iff ..).mpr (.inl rfl)
  sub_accepted := hs
  length_le := Nat.succ_le_succ ((payloadFits_iff payload).mp hp)
  decodes := hd ▸ decodeMessage_system hs op payload

theorem isFrameOf_device (hv : cfg.valid = true) {c : Nat} (hc : c < cfg.nch) (hp : payloadFits payload = true)
    (hd : decodeDevice cfg c op payload = i) :
    IsFrameOf cfg i cfg.deviceAddress (subOfChannel cfg c) (op :: payload) where
  target_accepted := (targetAccepted_iff ..).mpr (.inr rfl)
  sub_accepted := (subOfChannel_ok hv hc).1
  length_le := Nat.succ_le_succ ((payloadFits_iff payload).mp hp)
  decodes := hd ▸ decodeMessage_device hv hc op payload

theorem isFrameOf_broadcast (hv : cfg.valid = true) (hp : payloadFits payload = true) :
    IsFrameOf cfg (.broadcast op payload) cfg.deviceAddress 0 (op :: payload) where
  target_accepted := (targetAccepted_iff ..).mpr (.inr rfl)
  sub_accepted := (subAccepted_iff ..).mpr (.inl rfl)
  length_le := Nat.succ_le_succ ((payloadFits_iff payload).mp hp)
  decodes := decodeMessage_broadcast hv op payload

theorem isFrameOf_empty {target sub : Byte} (ht : targetAccepted cfg target = true)
    (hs : subAccepted cfg sub = true) : IsFrameOf cfg (.empty target sub) target sub [] where
  target_accepted := ht
  sub_accepted := hs
  length_le := Nat.zero_le _
  decodes := decodeMessage_messageOf_nil ht hs

end isFrameOf

/-- The encoder writes a frame of the command, for each of the fifteen commands (R90 to R98). -/
theorem exists_isFrameOf_of_encode {cfg : Config} (hv : cfg.valid = true) {i : Instr}
    (hw : wellFormed cfg i = true) {bytes : List Byte} (he : encode cfg i = some bytes) :
    ∃ target sub body, bytes = frameBytes cfg target sub body ∧ IsFrameOf cfg i target sub body := by
  cases i with
  | rxByte | tick | homeBegin | homeBeat | homeEnd | powerOn => cases he
  | empty target sub =>
    cases he
    simp only [wellFormed, Bool.and_eq_true] at hw
    obtain ⟨ht, hs⟩ := hw
    exact ⟨_, _, _, rfl, isFrameOf_empty ht hs⟩
  | broadcast => cases he; exact ⟨_, _, _, rfl, isFrameOf_broadcast hv hw⟩
  | sysFallback =>
    cases he
    simp only [wellFormed, Bool.and_eq_true, Bool.not_eq_true', List.contains_eq_mem, decide_eq_false_iff_not] at hw
    obtain ⟨⟨hs, hop⟩, hp⟩ := hw
    exact ⟨_, _, _, rfl, isFrameOf_system hs hp (decodeSystem_of_notMem hop ..)⟩
  | devFallback =>
    cases he
    simp only [wellFormed, Bool.and_eq_true, Bool.not_eq_true', List.contains_eq_mem, decide_eq_false_iff_not,
      decide_eq_true_eq] at hw
    obtain ⟨⟨hc, hop⟩, hp⟩ := hw
    exact ⟨_, _, _, rfl, isFrameOf_device hv hc hp (decodeDevice_of_notMem hop ..)⟩
  | sysPing | sysPong | sysReset | sysStart | sysStop =>
    cases he
    simp only [wellFormed, Bool.and_eq_true] at hw
    obtain ⟨hs, hp⟩ := hw
    refine ⟨_, _, _, rfl, isFrameOf_system hs hp ?_⟩
    simp only [decodeSystem_opcSysPing, decodeSystem_opcSysPong hv, decodeSystem_opcSysReset hv,
      decodeSystem_opcSysStart hv, decodeSystem_opcSysStop hv]
  | devReset | devNoteOff | devNoteOn | devBendPitch | devSetMovement | devSetTargetColor =>
    cases he
    simp only [wellFormed, Bool.and_eq_true, decide_eq_true_eq] at hw
    obtain ⟨hc, hp⟩ := hw
    refine ⟨_, _, _, rfl, isFrameOf_device hv hc hp ?_⟩
    simp only [decodeDevice_opcDevReset, decodeDevice_opcDevNoteOff hv, decodeDevice_opcDevNoteOn hv,
      decodeDevice_opcDevBendPitch hv, decodeDevice_opcDevSetMovement hv, decodeDevice_opcDevSetTargetColor hv]

/-- Settles O45: the encoder writes a frame of the command, and a frame decodes to what its Message stands for. -/
theorem decodeInvertsEncode : Obligations.DecodeInvertsEncode := by
  intro cfg i bytes rest hv hw he
  obtain ⟨target, sub, body, rfl, hframe⟩ := exists_isFrameOf_of_encode hv hw he
  exact decode_frameBytes_append hframe.target_accepted hframe.sub_accepted hframe.length_le hframe.decodes rest

/-! The other direction: what the decoder accepts is a frame, and the encoder writes that very frame (R98). -/

/-- Bytes the decoder accepts are a frame and the rest (R90, R91, R121 to R125). -/
theorem exists_frame_of_decode {cfg : Config} {bytes rest : List Byte} {i : Instr}
    (h : decode cfg bytes = .ok (i, rest)) :
    ∃ target sub body, bytes = frameBytes cfg target sub body ++ rest ∧ body.length ≤ 255 ∧
      decodeMessage cfg (messageOf target sub body) = .ok i := by
  unfold decode at h
  -- the eight ways out before the Message is decoded
  iterate 8
    split at h
    · cases h
  split at h
  case h_2 => cases h
  next _ hmarker _ target _ _ sub _ _ len body hlen _ j hdecode =>
    cases h
    have htake : (body.take len.toNat).length = len.toNat := List.length_take_of_le (Nat.le_of_not_lt hlen)
    refine ⟨target, sub, body.take len.toNat, ?_, by omega, hdecode⟩
    rw [frameBytes, htake, BitVec.ofNat_toNat, BitVec.setWidth_eq]
    simpa using hmarker

section decoded

variable {cfg : Config} {op : Byte} {payload : List Byte}

theorem encode_decodeSystem (sub : Byte) :
    encode cfg (decodeSystem cfg sub op payload) = some (frameBytes cfg systemAddress sub (op :: payload)) := by
  unfold decodeSystem
  repeat' split
  all_goals simp [encode, *]

theorem encode_decodeDevice (c : Nat) :
    encode cfg (decodeDevice cfg c op payload) =
      some (frameBytes cfg cfg.deviceAddress (subOfChannel cfg c) (op :: payload)) := by
  unfold decodeDevice
  repeat' split
  all_goals simp [encode, *]

/-- A fallback holds a command byte that none of the named commands took (R98). -/
theorem wellFormed_decodeSystem {sub : Byte} (hs : subAccepted cfg sub = true) (hp : payloadFits payload = true) :
    wellFormed cfg (decodeSystem cfg sub op payload) = true := by
  unfold decodeSystem
  repeat' split
  all_goals simp [wellFormed, Config.systemOpcodes, *]

theorem wellFormed_decodeDevice {c : Nat} (hc : c < cfg.nch) (hp : payloadFits payload = true) :
    wellFormed cfg (decodeDevice cfg c op payload) = true := by
  unfold decodeDevice
  repeat' split
  all_goals simp [wellFormed, Config.deviceOpcodes, *]

end decoded

/-- A Message that decodes is one of a well-formed command, whose encoding is the frame of that Message (R94, R98). -/
theorem wellFormed_and_encode_of_decodeMessage {cfg : Config} {target sub : Byte} {body : List Byte} {i : Instr}
    (hl : body.length ≤ 255) (h : decodeMessage cfg (messageOf target sub body) = .ok i) :
    wellFormed cfg i = true ∧ encode cfg i = some (frameBytes cfg target sub body) := by
  obtain ⟨ht, hs, hcases⟩ := decodeMessage_cases h
  rw [messageOf_target] at ht hcases
  rw [messageOf_sub] at hs hcases
  cases body with
  | nil =>
    obtain ⟨-, rfl⟩ | ⟨_, hnone, -⟩ := hcases
    · exact ⟨by simp [wellFormed, ht, hs], rfl⟩
    · cases hnone
  | cons op payload =>
    have hp : payloadFits payload = true := (payloadFits_iff payload).mpr (Nat.le_of_succ_le_succ hl)
    have hown : target ≠ systemAddress → target = cfg.deviceAddress := ((targetAccepted_iff ..).mp ht).resolve_left
    obtain ⟨hnone, -⟩ | ⟨_, hop, ⟨rfl, rfl⟩ | ⟨hdev, rfl, rfl⟩ | ⟨hdev, h0, rfl⟩⟩ := hcases
    · cases hnone
    all_goals cases hop
    · exact ⟨wellFormed_decodeSystem hs hp, encode_decodeSystem sub⟩
    · rw [hown hdev]
      exact ⟨hp, rfl⟩
    · rw [hown hdev]
      refine ⟨wellFormed_decodeDevice (channelOfSub_lt hs h0) hp, (encode_decodeDevice _).trans ?_⟩
      rw [subOfChannel_channelOfSub hs h0]
      rfl

/-- Settles O46, from the frame that accepted bytes begin with. -/
theorem encodeInvertsDecode : Obligations.EncodeInvertsDecode := by
  intro cfg i bytes rest _ h
  obtain ⟨target, sub, body, rfl, hl, hdecode⟩ := exists_frame_of_decode h
  obtain ⟨hw, he⟩ := wellFormed_and_encode_of_decodeMessage hl hdecode
  exact ⟨hw, _, he, rfl⟩

/-- Settles O44: the decoder evaluated on each of the ten byte strings. -/
theorem framesOfEachKindDecode : Obligations.FramesOfEachKindDecode :=
  ⟨rfl, rfl, rfl, rfl, rfl, rfl, rfl, rfl, rfl, rfl⟩

namespace Machine

/-! A frame's bytes through the parser, one after the other (R120 to R126). -/

theorem rxBytes_cons_of_next {b : Byte} {s t : State} (h : exec (.rxByte b) s = .next t) (rest : List Byte) :
    rxBytes (b :: rest) s = rxBytes rest t := by
  rw [rxBytes, h]

theorem rxBytes_singleton (b : Byte) (s : State) : rxBytes [b] s = exec (.rxByte b) s := by
  rw [rxBytes]
  cases exec (.rxByte b) s <;> rfl

/-- The parser inside a body of `len` bytes, `received` of them stored (R124, R125). -/
def State.inBody (s : State) (target sub : Byte) (len : Nat) (received : List Byte) : State :=
  { s with
    pstate := .body
    fTarget := target
    fSub := sub
    fLen := BitVec.ofNat 8 len
    fCnt := BitVec.ofNat 8 received.length
    fBody := received ++ s.fBody.drop received.length }

theorem toNat_ofNat_of_le {n : Nat} (h : n ≤ 255) : (BitVec.ofNat 8 n).toNat = n := by
  rw [BitVec.toNat_ofNat, Nat.mod_eq_of_lt (Nat.lt_succ_of_le h)]

/-- `F_CNT` counts the byte just stored (R125). -/
theorem ofNat_length_succ (received : List Byte) (b : Byte) :
    BitVec.ofNat 8 received.length + 1 = BitVec.ofNat 8 (received ++ [b]).length := by
  rw [List.length_append, List.length_singleton, BitVec.ofNat_add]
  rfl

/-- The next body byte is stored behind those received (R125). -/
theorem set_received_append_drop {buffer received : List Byte} (hroom : received.length < buffer.length) (b : Byte) :
    (received ++ buffer.drop received.length).set received.length b =
      (received ++ [b]) ++ buffer.drop (received ++ [b]).length := by
  rw [List.set_append_right _ _ le_rfl, Nat.sub_self, List.drop_eq_getElem_cons hroom, List.set_cons_zero]
  simp

/-- The block takes bytes: it is powered and in RUN, with a whole body buffer (R32, R120). -/
structure CanReceive (s : State) : Prop where
  powered : s.powered = true
  run : s.mode = .run
  buffer : s.fBody.length = 255

section body

variable {s : State} (hs : CanReceive s) {target sub b : Byte} {received rest : List Byte}

include hs

/-- A body byte that is not the last one (R125). -/
theorem exec_rxByte_inBody_more {len : Nat} (hlen : len ≤ 255) (hmore : (received ++ [b]).length < len) :
    exec (.rxByte b) (s.inBody target sub len received) = .next (s.inBody target sub len (received ++ [b])) := by
  have hl : received.length < (received ++ [b]).length := by simp
  have hidx := toNat_ofNat_of_le (n := received.length) (by omega)
  have hset := set_received_append_drop (buffer := s.fBody) (received := received) (by rw [hs.buffer]; omega) b
  have hcnt : BitVec.ofNat 8 (received ++ [b]).length ≠ BitVec.ofNat 8 len := fun h => by
    have := congrArg BitVec.toNat h
    rw [toNat_ofNat_of_le hlen, toNat_ofNat_of_le (by omega)] at this
    omega
  rw [← ofNat_length_succ] at hcnt
  rw [(bodyCollectsAndHandsOff (s.inBody target sub len received) b hs.powered hs.run rfl).1 hcnt]
  simp only [State.inBody, hidx, hset, ofNat_length_succ received b]

/-- The last body byte runs the command the frame decodes to (R125, R126). -/
theorem exec_rxByte_inBody_last {i : Instr} (hframe : IsFrameOf s.cfg i target sub (received ++ [b])) :
    exec (.rxByte b) (s.inBody target sub (received ++ [b]).length received) =
      exec i (s.afterFrame target sub (received ++ [b])) := by
  have hlen := hframe.length_le
  have hl : received.length < (received ++ [b]).length := by simp
  have hidx := toNat_ofNat_of_le (n := received.length) (by omega)
  have hset := set_received_append_drop (buffer := s.fBody) (received := received) (by rw [hs.buffer]; omega) b
  have hlast := (bodyCollectsAndHandsOff (s.inBody target sub (received ++ [b]).length received) b hs.powered hs.run
    rfl).2 (ofNat_length_succ received b) i
  simp only [State.inBody, hidx, hset, toNat_ofNat_of_le hlen, List.take_left, ofNat_length_succ _ b] at hlast ⊢
  exact hlast hframe.decodes

/-- The rest of a body, down to its last byte (R125, R126). -/
theorem rxBytes_inBody {i : Instr} (hframe : IsFrameOf s.cfg i target sub (received ++ rest)) (hrest : rest ≠ []) :
    rxBytes rest (s.inBody target sub (received ++ rest).length received) =
      exec i (s.afterFrame target sub (received ++ rest)) := by
  induction rest generalizing received with
  | nil => exact absurd rfl hrest
  | cons b rest ih =>
    cases rest with
    | nil =>
      rw [rxBytes_singleton]
      exact exec_rxByte_inBody_last hs hframe
    | cons b' rest =>
      have hmore : (received ++ [b]).length < (received ++ b :: b' :: rest).length := by simp
      rw [rxBytes_cons_of_next (exec_rxByte_inBody_more hs hframe.length_le hmore), List.append_cons]
      rw [List.append_cons] at hframe
      exact ih hframe (by simp)

end body

/-- The body bytes, or the length byte where there are none, run the command (R124 to R126). -/
theorem rxBytes_len_body {s : State} (hs : CanReceive s) {i : Instr} {target sub : Byte} {body : List Byte}
    (hframe : IsFrameOf s.cfg i target sub body) :
    rxBytes (BitVec.ofNat 8 body.length :: body) { s with pstate := .len, fTarget := target, fSub := sub } =
      exec i (s.afterFrame target sub body) := by
  have hlen := lenStartsTheBodyOrEndsTheFrame { s with pstate := .len, fTarget := target, fSub := sub }
    (BitVec.ofNat 8 body.length) hs.powered hs.run rfl
  cases body with
  | nil =>
    have hi : i = .empty target sub := by
      have := (decodeMessage_messageOf_nil hframe.target_accepted hframe.sub_accepted).symm.trans hframe.decodes
      exact (Except.ok.inj this).symm
    rw [rxBytes_singleton, hi]
    exact hlen.2 rfl hframe.target_accepted hframe.sub_accepted
  | cons b rest =>
    have hne : BitVec.ofNat 8 (b :: rest).length ≠ 0 := fun h => by
      have := congrArg BitVec.toNat h
      rw [toNat_ofNat_of_le hframe.length_le] at this
      cases this
    rw [rxBytes_cons_of_next (hlen.1 hne)]
    exact rxBytes_inBody hs (received := []) hframe (by simp)

/-- The bytes of a frame the parser accepts, from SEEK (R121 to R126). -/
theorem rxBytes_frameBytes {s : State} (hs : CanReceive s) (hseek : s.pstate = .seek) {i : Instr} {target sub : Byte}
    {body : List Byte} (hframe : IsFrameOf s.cfg i target sub body) :
    rxBytes (frameBytes s.cfg target sub body) s = exec i (s.afterFrame target sub body) := by
  have hmarker := (seekTakesOnlyTheMarker s s.cfg.startMarker hs.powered hs.run hseek).1 rfl
  have htarget := (targetTakesSystemAndOwnAddress { s with pstate := .target } target hs.powered hs.run rfl).1
    ((targetAccepted_iff ..).mp hframe.target_accepted)
  have hsub := (subTakesBroadcastAndRange { s with pstate := .sub, fTarget := target } sub hs.powered hs.run rfl).1
    ((subAccepted_iff ..).mp hframe.sub_accepted)
  rw [frameBytes, rxBytes_cons_of_next hmarker, rxBytes_cons_of_next htarget, rxBytes_cons_of_next hsub]
  exact rxBytes_len_body hs hframe

theorem frameBytes_inj {cfg : Config} {target sub target' sub' : Byte} {body body' : List Byte}
    (h : frameBytes cfg target sub body = frameBytes cfg target' sub' body') :
    target = target' ∧ sub = sub' ∧ body = body' := by
  simp only [frameBytes, List.cons.injEq] at h
  obtain ⟨-, htarget, hsub, -, hbody⟩ := h
  exact ⟨htarget, hsub, hbody⟩

/-- Settles O42: the encoder's frame is the only one with these bytes, and the parser runs it byte by byte. -/
theorem frameBytesRunTheirCommand : Obligations.FrameBytesRunTheirCommand := by
  intro s i bytes target sub body hv hpowered hrun hseek hbuffer hw he hbytes
  obtain ⟨target', sub', body', hframe', hframe⟩ := exists_isFrameOf_of_encode hv hw he
  obtain ⟨rfl, rfl, rfl⟩ := frameBytes_inj (hbytes.symm.trans hframe')
  rw [hbytes]
  exact rxBytes_frameBytes ⟨hpowered, hrun, hbuffer⟩ hseek hframe

/-- Settles O43, byte by byte: a byte that is no start marker leaves the state. -/
theorem noiseInSeekIsSkipped : Obligations.NoiseInSeekIsSkipped := by
  intro noise bytes s hpowered hrun hseek hnoise
  induction noise with
  | nil => rfl
  | cons b noise ih =>
    rw [List.mem_cons, not_or] at hnoise
    have hskip := (seekTakesOnlyTheMarker s b hpowered hrun hseek).2 (Ne.symm hnoise.1)
    rw [List.cons_append, rxBytes_cons_of_next hskip]
    exact ih hnoise.2

end Machine

end Sys2Proof

/-! PROOF. O1, O3, O4, O10, O53, O54, O56, O57: what a step is turn by turn (R70, R72), what each event operation answers
when it is enabled and when it is not, what the operations refuse (R148, R284), and which registers each of them may write
(R28, R42). -/

namespace Sys2Proof.Machine

/-- Settles O1, field by field of the initial state. -/
theorem initialRegistersHoldTheirResetValues : Obligations.InitialRegistersHoldTheirResetValues := by
  intro cfg
  refine ⟨initialLanes_length cfg, fun c hc => ?_, rfl, rfl, rfl, rfl, rfl, rfl, rfl⟩
  refine ⟨⟨Channel.initial cfg c, 0⟩, ?_, rfl, rfl, rfl, rfl, rfl, rfl, rfl, rfl, rfl⟩
  rw [State.initial_lanes, initialLanes_getElem?, if_pos hc]

/-! What each event operation answers (R180, R203 to R206, R280; log entry 5). -/

theorem exec_tick_of_powered {s : State} (hp : s.powered = true) : exec .tick s = .next (tick s) := if_pos hp

theorem exec_tick_cases {s t : State} (h : exec .tick s = .next t) :
    (s.powered = true ∧ t = tick s) ∨ (s.powered = false ∧ t = s) := by
  simp only [exec, execTick] at h
  split at h <;> cases h
  · exact .inl ⟨‹_›, rfl⟩
  · next hoff => exact .inr ⟨Bool.eq_false_of_not_eq_true hoff, rfl⟩

theorem exec_homeBegin_cases {sel : List Nat} {s t : State} (h : exec (.homeBegin sel) s = .next t) :
    selectionOk s.cfg sel = true ∧ t = homeBegin sel s := by
  simp only [exec, execHomeBegin] at h
  split at h <;> cases h
  exact ⟨‹_›, rfl⟩

theorem exec_homeBeat_cases {s t : State} (h : exec .homeBeat s = .next t) :
    (homeBeatEnabled s = true ∧ t = homeBeat s) ∨ (homeBeatEnabled s = false ∧ t = s) := by
  simp only [exec, execHomeBeat] at h
  split at h <;> cases h
  · exact .inl ⟨‹_›, rfl⟩
  · next hoff => exact .inr ⟨Bool.eq_false_of_not_eq_true hoff, rfl⟩

theorem exec_homeEnd_cases {s t : State} (h : exec .homeEnd s = .next t) :
    (homeEndEnabled s = true ∧ t = homeEnd s) ∨ (homeEndEnabled s = false ∧ t = s) := by
  simp only [exec, execHomeEnd] at h
  split at h <;> cases h
  · exact .inl ⟨‹_›, rfl⟩
  · next hoff => exact .inr ⟨Bool.eq_false_of_not_eq_true hoff, rfl⟩

theorem exec_powerOn_cases {s t : State} (h : exec .powerOn s = .next t) :
    (s.powered = true ∧ t = s) ∨ (s.powered = false ∧ s.cfg.valid = true ∧ t = powerOn s) := by
  simp only [exec, execPowerOn] at h
  split at h
  · cases h
    exact .inl ⟨‹_›, rfl⟩
  · next hoff =>
    split at h <;> cases h
    exact .inr ⟨Bool.eq_false_of_not_eq_true hoff, ‹_›, rfl⟩

/-- Settles O4, by the condition each operation tests first. -/
theorem disabledOperationsLeaveTheState : Obligations.DisabledOperationsLeaveTheState := by
  refine fun s => ⟨fun hp => if_pos hp, fun hp => ?_, fun b hoff => ?_, fun hoff => ?_, fun hoff => ?_⟩
  · exact if_neg (by simp [hp])
  · have hrx : ¬ rxEnabled s = true := by
      obtain hp | hm := hoff
      · simp [rxEnabled, hp]
      · simp [rxEnabled, hm]
    exact if_neg hrx
  · have hbeat : ¬ homeBeatEnabled s = true := by
      obtain hp | hm | hdone := hoff
      · simp [homeBeatEnabled, hp]
      · simp [homeBeatEnabled, hm]
      · simp [homeBeatEnabled, hdone]
    exact if_neg hbeat
  · have hend : ¬ homeEndEnabled s = true := by
      obtain hp | hm | hne := hoff
      · simp [homeEndEnabled, hp]
      · simp [homeEndEnabled, hm]
      · simp [homeEndEnabled, hne]
    exact if_neg hend

/-- Settles O3: a device command is refused by the channel check it shares with all others. -/
theorem badOperandsAreRefusedByName : Obligations.BadOperandsAreRefusedByName := by
  refine ⟨fun s hp hv => ?_, fun s i c hi hc => ?_, fun s sel hsel => if_neg (by simp [hsel])⟩
  · simp [exec, execPowerOn, hp, hv]
  · obtain ⟨f, -, hexec⟩ := exists_localTo_of_deviceChannel hi
    rw [hexec]
    exact if_neg hc.not_gt

/-- Settles O10: the two resets are HOME_BEGIN by definition, and their sets of channels are homing sets. -/
theorem resetsBeginHoming : Obligations.ResetsBeginHoming := by
  refine fun s sub payload => ⟨fun c hc => ⟨onChannel_of_lt hc _, if_pos (selectionOk_singleton hc), fun hv => ?_⟩, rfl,
    if_pos (selectionOk_range s.cfg), fun hv hs => ?_⟩
  · rw [decodeMessage_device hv hc, decodeDevice_opcDevReset]
  · rw [decodeMessage_system hs, decodeSystem_opcSysReset hv]

/-! A step, turn by turn (R70, R72). -/

theorem step_of_scheduled {s : State} (hp : s.powered = true) {turn : Turn} {turns : List Turn}
    (hs : s.schedule = turn :: turns) : step s = runTurn turn { s with schedule := turns } := by
  simp [step, runNext, hp, hs]

theorem step_of_unscheduled {s : State} (hp : s.powered = true) (hs : s.schedule = []) :
    step s = runTurn (Config.freeTurn s.freeIdx) s.drawFree := by
  simp [step, runNext, hp, hs]

theorem mainTurn_of_run_nil {s : State} (hm : s.mode = .run) (hq : s.rxQueue = []) : mainTurn s = .next s := by
  simp [mainTurn, hm, hq]

theorem mainTurn_of_run_cons {s : State} (hm : s.mode = .run) {b : Byte} {queue : List Byte}
    (hq : s.rxQueue = b :: queue) : mainTurn s = exec (.rxByte b) { s with rxQueue := queue } := by
  simp [mainTurn, hm, hq]

/-- Settles O57, by the head of the schedule and, in MAIN's turn, the mode and the queue. -/
theorem stepGivesEachAgentItsTurn : Obligations.StepGivesEachAgentItsTurn := by
  refine fun s => ⟨step_of_unpowered, fun hp turns => ⟨step_of_scheduled hp, fun b => step_of_scheduled hp,
    fun hs hm => ⟨fun hq => ?_, fun b queue hq => ?_⟩, fun hs hm => ?_, step_of_unscheduled hp⟩⟩
  · exact (step_of_scheduled hp hs).trans (mainTurn_of_run_nil (s := { s with schedule := turns }) hm hq)
  · exact (step_of_scheduled hp hs).trans (mainTurn_of_run_cons (s := { s with schedule := turns }) hm hq)
  · exact (step_of_scheduled hp hs).trans (mainTurn_of_homing (s := { s with schedule := turns }) hm)

/-- Settles O56: MAIN's turn receives the byte, and a byte that completes a frame runs what the frame decodes to. -/
theorem stepRunsTheDecodedCommand : Obligations.StepRunsTheDecodedCommand := by
  intro s turns b queue i hp hs hm hq hbody hlast hdecode
  calc step s
      = mainTurn { s with schedule := turns } := step_of_scheduled hp hs
    _ = exec (.rxByte b) { s with schedule := turns, rxQueue := queue } :=
        mainTurn_of_run_cons (s := { s with schedule := turns }) hm hq
    _ = _ := (bodyCollectsAndHandsOff { s with schedule := turns, rxQueue := queue } b hp hm hbody).2 hlast i hdecode

/-! The constants of the configuration (R42). -/

theorem CommandEffect.cfg_eq {s t : State} (h : CommandEffect s t) : t.cfg = s.cfg := by
  cases h <;> rfl

@[simp] theorem homeBeat_cfg (s : State) : (homeBeat s).cfg = s.cfg := by rw [homeBeat_frame]

@[simp] theorem tick_cfg (s : State) : (tick s).cfg = s.cfg := by rw [tick_frame]

@[simp] theorem powerOn_cfg (s : State) : (powerOn s).cfg = s.cfg := by
  rw [powerOn_frame]
  rfl

theorem exec_keeps_cfg {i : Instr} {s t : State} (h : exec i s = .next t) : t.cfg = s.cfg := by
  cases i with
  | rxByte b =>
    obtain ⟨hparse, -⟩ := parseByte_cfg_trace b s
    obtain ⟨-, rfl⟩ | ⟨-, -, rfl⟩ | ⟨-, -, _, -, -, -, effect⟩ := execRxByte_cases h
    · rfl
    · exact hparse
    · exact effect.cfg_eq.trans hparse
  | tick =>
    obtain ⟨-, rfl⟩ | ⟨-, rfl⟩ := exec_tick_cases h
    · exact tick_cfg s
    · rfl
  | homeBegin sel =>
    obtain ⟨-, rfl⟩ := exec_homeBegin_cases h
    rfl
  | homeBeat =>
    obtain ⟨-, rfl⟩ | ⟨-, rfl⟩ := exec_homeBeat_cases h
    · exact homeBeat_cfg s
    · rfl
  | homeEnd =>
    obtain ⟨-, rfl⟩ | ⟨-, rfl⟩ := exec_homeEnd_cases h <;> rfl
  | powerOn =>
    obtain ⟨-, rfl⟩ | ⟨-, -, rfl⟩ := exec_powerOn_cases h
    · rfl
    · exact powerOn_cfg s
  | _ => exact (exec_command_effect rfl h).cfg_eq

theorem TurnTaken.cfg_eq {s u : State} {turn : Turn} (h : TurnTaken s turn u) : u.cfg = s.cfg := by
  cases h <;> rfl

/-- Settles O53: a step is one operation on a state with the same configuration. -/
theorem configurationIsNeverWritten : Obligations.ConfigurationIsNeverWritten := by
  refine ⟨fun _ _ _ => exec_keeps_cfg, fun s t h => ?_⟩
  obtain ⟨-, hexec⟩ | ⟨-, turn, u, taken, hturn⟩ := step_cases h
  · exact exec_keeps_cfg hexec
  · rw [← taken.cfg_eq]
    obtain ⟨b, -, rfl⟩ | ⟨-, htick⟩ | ⟨-, -, -, hbeat⟩ | ⟨-, -, -, hend⟩ | ⟨-, -, -, rfl⟩ | ⟨-, -, b, rest, -, hrx⟩ :=
      hturn
    · rfl
    · exact exec_keeps_cfg htick
    · exact exec_keeps_cfg hbeat
    · exact exec_keeps_cfg hend
    · rfl
    · exact exec_keeps_cfg (s := { u with rxQueue := rest }) hrx

/-! Which registers of its record an operation may write (R28). -/

/-- What operation `i` may make of a record: the registers the table of R28 does not give it are kept. -/
def mayWrite (i : Instr) (old new : Channel) : Prop :=
  match i with
  | .tick =>
    new = { old with elapsed := new.elapsed, position := new.position, dir := new.dir, out := new.out }
  | .homeEnd => new = { old with elapsed := new.elapsed, position := new.position, dir := new.dir }
  | .homeBeat => new = { old with out := new.out }
  | .homeBegin _ | .devReset _ _ | .sysReset _ _ | .broadcast _ _ =>
    new = { old with curPeriod := new.curPeriod, origPeriod := new.origPeriod, dir := new.dir }
  | .devNoteOn _ _ | .devNoteOff _ _ | .sysStop _ _ =>
    new = { old with curPeriod := new.curPeriod, origPeriod := new.origPeriod }
  | .devBendPitch _ _ => new = { old with curPeriod := new.curPeriod }
  | .devSetMovement _ _ => new = { old with minPos := new.minPos, maxPos := new.maxPos }
  | .sysPing _ _ | .sysPong _ _ | .sysStart _ _ | .sysFallback _ _ _ | .devSetTargetColor _ _ | .devFallback _ _ _ |
    .empty _ _ | .rxByte _ | .powerOn => new = old

theorem mayWrite_refl (i : Instr) (ch : Channel) : mayWrite i ch ch := by
  cases i <;> rfl

/-- From `s` to `t` every record changes by `R`, lane by lane. -/
def RecordsChangeBy (R : Channel → Channel → Prop) (s t : State) : Prop :=
  ∃ g : Nat → Lane → Lane, t.lanes = s.lanes.mapIdx g ∧ ∀ c l, R l.ch (g c l).ch

section recordsChangeBy

variable {R : Channel → Channel → Prop} {s t : State}

theorem RecordsChangeBy.of_lanes_eq (hR : ∀ ch, R ch ch) (h : t.lanes = s.lanes) : RecordsChangeBy R s t :=
  ⟨fun _ l => l, by rw [h]; exact List.ext_getElem (by simp) (by simp), fun _ l => hR l.ch⟩

theorem RecordsChangeBy.overLanes {f : Nat → Lane → LaneResult} (hf : ∀ c l, R l.ch (f c l).lane.ch)
    (h : t.lanes = (s.overLanes f).lanes) : RecordsChangeBy R s t :=
  ⟨fun c l => (f c l).lane, h, hf⟩

theorem RecordsChangeBy.modifyAll {f : Channel → Channel} (hf : ∀ ch, R ch (f ch)) :
    RecordsChangeBy R s (s.modifyAll f) :=
  ⟨fun _ l => { l with ch := f l.ch }, List.ext_getElem (by simp) (by simp), fun _ l => hf l.ch⟩

theorem RecordsChangeBy.modifyChan (hR : ∀ ch, R ch ch) (c : Nat) {f : Channel → Channel} (hf : ∀ ch, R ch (f ch)) :
    RecordsChangeBy R s (s.modifyChan c f) := by
  refine ⟨fun k l => if c = k then { l with ch := f l.ch } else l, ?_, fun k l => ?_⟩
  · ext1 k
    rw [State.modifyChan_getElem?, List.getElem?_mapIdx]
  · dsimp only
    split
    · exact hf l.ch
    · exact hR l.ch

/-- HOME_BEGIN writes the two periods and the direction of the selected records (R203). -/
theorem RecordsChangeBy.homeBegin {sel : List Nat}
    (hR : ∀ ch, R ch ch)
    (hsel : ∀ ch, R ch { ch with curPeriod := 0, origPeriod := 0, dir := .reverse }) :
    RecordsChangeBy R s (homeBegin sel s) := by
  refine .overLanes (fun c l => ?_) (homeBegin_lanes sel s)
  rw [homeBeginLane_ch]
  split
  · exact hsel l.ch
  · exact hR l.ch

/-- A register that such a change keeps is the same in every record. -/
theorem RecordsChangeBy.map_eq {α : Type} {r : Channel → α} (hr : ∀ old new, R old new → r new = r old)
    (h : RecordsChangeBy R s t) : t.lanes.map (fun l => r l.ch) = s.lanes.map fun l => r l.ch := by
  obtain ⟨g, hg, hR⟩ := h
  rw [hg]
  exact List.ext_getElem (by simp) fun c _ _ => by simpa using hr _ _ (hR c _)

end recordsChangeBy

/-- What an operation answers differs from the state it ran on by what `mayWrite` allows it, record by record. -/
theorem exec_changes_records {i : Instr} {s t : State} (h : exec i s = .next t) (hrx : ∀ b, i ≠ .rxByte b)
    (hon : i ≠ .powerOn) : RecordsChangeBy (mayWrite i) s t := by
  cases i with
  | rxByte b => exact absurd rfl (hrx b)
  | powerOn => exact absurd rfl hon
  | sysPing | sysPong | sysStart | sysFallback | empty =>
    cases h
    exact .of_lanes_eq (mayWrite_refl _) rfl
  | devSetTargetColor | devFallback =>
    obtain ⟨-, rfl⟩ := (onChannel_eq_next_iff ..).mp h
    exact .of_lanes_eq (mayWrite_refl _) rfl
  | sysStop =>
    simp only [exec, execSysStop] at h
    split at h <;> cases h
    · exact .modifyAll fun _ => rfl
    · exact .of_lanes_eq (mayWrite_refl _) rfl
  | devNoteOff c =>
    obtain ⟨-, rfl⟩ := (onChannel_eq_next_iff ..).mp h
    exact .modifyChan (mayWrite_refl _) c fun _ => rfl
  | devNoteOn c =>
    obtain ⟨cur, orig, rfl⟩ := exists_setPeriods_of_devNoteOn h
    exact .modifyChan (mayWrite_refl _) c fun _ => rfl
  | devBendPitch c =>
    obtain ⟨cur, i, rfl⟩ := exists_setPeriods_of_devBendPitch h
    exact .modifyChan (mayWrite_refl _) c fun _ => rfl
  | devSetMovement c payload =>
    simp only [exec, execDevSetMovement] at h
    split at h <;> obtain ⟨-, rfl⟩ := (onChannel_eq_next_iff ..).mp h
    · exact .of_lanes_eq (mayWrite_refl _) rfl
    · exact .modifyChan (mayWrite_refl _) c fun _ => rfl
    · exact .modifyChan (mayWrite_refl _) c fun _ => rfl
  | devReset =>
    obtain ⟨-, rfl⟩ := (onChannel_eq_next_iff ..).mp h
    exact .homeBegin (mayWrite_refl _) fun _ => rfl
  | sysReset =>
    cases h
    exact .homeBegin (mayWrite_refl _) fun _ => rfl
  | homeBegin =>
    obtain ⟨-, rfl⟩ := exec_homeBegin_cases h
    exact .homeBegin (mayWrite_refl _) fun _ => rfl
  | broadcast op =>
    simp only [exec, execBroadcast] at h
    split at h
    · cases h
      exact .homeBegin (mayWrite_refl _) fun _ => rfl
    · split at h <;> cases h
      · exact .homeBegin (mayWrite_refl _) fun _ => rfl
      · exact .of_lanes_eq (mayWrite_refl _) rfl
  | tick =>
    obtain ⟨-, rfl⟩ | ⟨-, rfl⟩ := exec_tick_cases h
    · refine .overLanes (fun c l => ?_) (State.overLanesThenCommit_lanes ..)
      rw [tickLane_ch]
      split
      · rfl
      · split <;> rfl
    · exact .of_lanes_eq (mayWrite_refl _) rfl
  | homeBeat =>
    obtain ⟨-, rfl⟩ | ⟨-, rfl⟩ := exec_homeBeat_cases h
    · refine .overLanes (fun c l => ?_) (State.overLanesThenCommit_lanes ..)
      rw [homeBeatLane_ch]
      split <;> rfl
    · exact .of_lanes_eq (mayWrite_refl _) rfl
  | homeEnd =>
    obtain ⟨-, rfl⟩ | ⟨-, rfl⟩ := exec_homeEnd_cases h
    · refine .overLanes (fun c l => ?_) (homeEnd_lanes s)
      rw [homeEndLane_ch]
      split <;> rfl
    · exact .of_lanes_eq (mayWrite_refl _) rfl

/-! The writers of each register: every other operation keeps it. -/

section writers

variable {i : Instr} {old new : Channel} (h : mayWrite i old new)

include h

theorem mayWrite_elapsed : new.elapsed = old.elapsed ∨ i = .tick ∨ i = .homeEnd := by
  cases i with
  | tick | homeEnd => simp
  | _ => exact .inl ((congrArg Channel.elapsed h).trans rfl)

theorem mayWrite_position : new.position = old.position ∨ i = .tick ∨ i = .homeEnd := by
  cases i with
  | tick | homeEnd => simp
  | _ => exact .inl ((congrArg Channel.position h).trans rfl)

theorem mayWrite_out : new.out = old.out ∨ i = .tick ∨ i = .homeBeat := by
  cases i with
  | tick | homeBeat => simp
  | _ => exact .inl ((congrArg Channel.out h).trans rfl)

theorem mayWrite_bounds : (new.minPos, new.maxPos) = (old.minPos, old.maxPos) ∨ ∃ c p, i = .devSetMovement c p := by
  cases i with
  | devSetMovement => simp
  | _ => exact .inl ((congrArg (fun ch => (ch.minPos, ch.maxPos)) h).trans rfl)

theorem mayWrite_dir : new.dir = old.dir ∨ i = .tick ∨ i = .homeEnd ∨ (∃ sel, i = .homeBegin sel) ∨
    (∃ c p, i = .devReset c p) ∨ (∃ sub p, i = .sysReset sub p) ∨ ∃ op p, i = .broadcast op p := by
  cases i with
  | tick | homeEnd | homeBegin | devReset | sysReset | broadcast => simp
  | _ => exact .inl ((congrArg Channel.dir h).trans rfl)

theorem mayWrite_origPeriod : new.origPeriod = old.origPeriod ∨ (∃ c p, i = .devNoteOn c p) ∨
    (∃ c p, i = .devNoteOff c p) ∨ (∃ sub p, i = .sysStop sub p) ∨ (∃ sel, i = .homeBegin sel) ∨
    (∃ c p, i = .devReset c p) ∨ (∃ sub p, i = .sysReset sub p) ∨ ∃ op p, i = .broadcast op p := by
  cases i with
  | devNoteOn | devNoteOff | sysStop | homeBegin | devReset | sysReset | broadcast => simp
  | _ => exact .inl ((congrArg Channel.origPeriod h).trans rfl)

theorem mayWrite_curPeriod : new.curPeriod = old.curPeriod ∨ (∃ c p, i = .devNoteOn c p) ∨
    (∃ c p, i = .devNoteOff c p) ∨ (∃ c p, i = .devBendPitch c p) ∨ (∃ sub p, i = .sysStop sub p) ∨
    (∃ sel, i = .homeBegin sel) ∨ (∃ c p, i = .devReset c p) ∨ (∃ sub p, i = .sysReset sub p) ∨
    ∃ op p, i = .broadcast op p := by
  cases i with
  | devNoteOn | devNoteOff | devBendPitch | sysStop | homeBegin | devReset | sysReset | broadcast => simp
  | _ => exact .inl ((congrArg Channel.curPeriod h).trans rfl)

end writers

/-- A register that changed in some record belongs to the operation's own. -/
theorem writer_of_map_ne {α : Type} {i : Instr} {s t : State} {r : Channel → α} {writer : Prop}
    (hrec : RecordsChangeBy (mayWrite i) s t) (hr : ∀ {old new}, mayWrite i old new → r new = r old ∨ writer)
    (hne : t.lanes.map (fun l => r l.ch) ≠ s.lanes.map fun l => r l.ch) : writer := by
  by_contra hno
  exact hne (hrec.map_eq fun _ _ h => (hr h).resolve_right hno)

/-- Settles O54, register by register, from what each operation may make of a record. -/
theorem eachRegisterHasItsWriters : Obligations.EachRegisterHasItsWriters := by
  intro i s t h hrx hon
  have hrec := exec_changes_records h hrx hon
  exact ⟨writer_of_map_ne hrec mayWrite_elapsed, writer_of_map_ne hrec mayWrite_position,
    writer_of_map_ne hrec mayWrite_out, writer_of_map_ne hrec mayWrite_bounds, writer_of_map_ne hrec mayWrite_dir,
    writer_of_map_ne hrec mayWrite_origPeriod, writer_of_map_ne hrec mayWrite_curPeriod⟩

end Sys2Proof.Machine

/-! PROOF. O18, O21, O58, O59: what a bend writes (R166, R169, R170), and the invariant of the block: it holds initially,
and every part of a step keeps it (R29, R187, R204, R207). -/

namespace Sys2Proof.Machine

/-! Bends (R166 to R170). -/

/-- B2: a bend of silence by any deflection has the result 0. -/
theorem bendScale_zero_period (cfg : Config) (d : ℤ) : bendFits cfg 0 d = true ∧ bendScale cfg 0 d = 0 :=
  bendScale_of_nominal_eq (by simpa using bendNominal_zero_period ..) (Nat.two_pow_pos _)

/-- A bent period that is defined fits its register (R168). -/
theorem bendScale_lt {cfg : Config} {p : ℕ} {d : ℤ} (h : bendFits cfg p d = true) :
    bendScale cfg p d < 2 ^ cfg.periodW := by
  have hceil : ⌈bendNominal cfg.bendOctaves p d⌉₊ ≤ 2 ^ cfg.periodW - 1 := by
    rw [Nat.ceil_le, Nat.cast_sub Nat.one_le_two_pow]
    exact_mod_cast (bendFits_iff cfg p d).mp h
  have hfloor := Nat.floor_le_ceil (bendNominal cfg.bendOctaves p d)
  have hpos := Nat.two_pow_pos cfg.periodW
  rw [bendScale_eq_round h]
  split <;> omega

theorem bendDefined_iff (cfg : Config) (p : ℕ) (d : ℤ) :
    bendDefined cfg p d = true ↔ -8192 ≤ d ∧ d ≤ 8191 ∧ bendFits cfg p d = true := by
  simp [bendDefined, deflectionOk, and_assoc]

theorem bendChannel_of_undefined {c : Nat} {d : Int} {s : State}
    (hd : ¬ bendDefined s.cfg (s.chan c).origPeriod d = true) :
    bendChannel c d s =
      s.drawFree.modifyChan c fun ch => { ch with curPeriod := Config.freePeriod s.freeIdx % 2 ^ s.cfg.periodW } :=
  if_neg hd

/-- Settles O18: fewer than two bytes give no deflection, and with two the result is defined or drawn. -/
theorem bendRecomputesFromTheOriginalPeriod : Obligations.BendRecomputesFromTheOriginalPeriod := by
  refine fun s c hc => ⟨fun payload hshort => ?_, fun hi lo rest d hd => ⟨fun hge hle hfits => ?_, fun hundef => ?_,
    fun hv => ?_⟩⟩
  · match payload with
    | [] | [_] => exact onChannel_of_lt hc s
    | _ :: _ :: _ => simp at hshort
  · subst hd
    calc exec (.devBendPitch c (hi :: lo :: rest)) s
        = .next (bendChannel c (hi ++ lo).toInt s) := onChannel_of_lt hc _
      _ = _ := by rw [bendChannel_of_defined ((bendDefined_iff ..).mpr ⟨hge, hle, hfits⟩)]; rfl
  · subst hd
    have hno : ¬ bendDefined s.cfg (s.chan c).origPeriod (hi ++ lo).toInt = true := by
      rw [bendDefined_iff, ← Bool.not_eq_false]
      rintro ⟨hge, hle, hfits⟩
      obtain h | h | h := hundef
      · omega
      · omega
      · exact hfits h
    calc exec (.devBendPitch c (hi :: lo :: rest)) s
        = .next (bendChannel c (hi ++ lo).toInt s) := onChannel_of_lt hc _
      _ = _ := by rw [bendChannel_of_undefined hno]; rfl
  · rw [decodeMessage_device hv hc, decodeDevice_opcDevBendPitch hv]

/-- Settles O21: the bend is defined, since silence bends to silence. -/
theorem bendNeverStartsANote : Obligations.BendNeverStartsANote := by
  intro s c hi lo rest hc hlane horig hok
  obtain ⟨hfits, hzero⟩ := bendScale_zero_period s.cfg (hi ++ lo).toInt
  have hdefined : bendDefined s.cfg (s.chan c).origPeriod (hi ++ lo).toInt = true := by
    rw [horig, bendDefined, hok, hfits]
    rfl
  refine ⟨bendChannel c (hi ++ lo).toInt s, onChannel_of_lt hc _, ?_⟩
  rw [bendChannel_of_defined hdefined, State.modifyChan_chan_same hlane]
  exact ⟨horig ▸ hzero, horig, rfl⟩

/-! A step as a sequence of parts (R70, R126): a property each part keeps is kept by every step. -/

/-- `s` with other data of the environment: the turns to come, the bytes offered, the free values taken. -/
def State.withEnv (s : State) (turns : List Turn) (queue : List Byte) (i : Nat) : State :=
  { s with schedule := turns, rxQueue := queue, freeIdx := i }

/-- `P` is kept by each part a step is made of: the environment's data, the parser's work on a byte, a command at the end
of a frame, TICK, the homing members where they are enabled, and POWER_ON. -/
structure KeptByParts (P : State → Prop) : Prop where
  env : ∀ {s} turns queue i, P s → P (s.withEnv turns queue i)
  parse : ∀ {s} b, s.mode = .run → P s → P (parseByte b s).1
  command : ∀ {s t}, s.mode = .run → s.pstate = .seek → CommandEffect s t → P s → P t
  tick : ∀ {s}, P s → P (tick s)
  homeBeat : ∀ {s}, s.mode = .homing → s.homeCnt < homeBeats s.cfg s.homeSel → P s → P (homeBeat s)
  homeEnd : ∀ {s}, s.mode = .homing → s.homeCnt = homeBeats s.cfg s.homeSel → P s → P (homeEnd s)
  powerOn : ∀ {s}, s.cfg.valid = true → P s → P (powerOn s)

@[simp] theorem parseByte_mode (b : Byte) (s : State) : (parseByte b s).1.mode = s.mode := by rw [parseByte_frame]

/-- The end of a frame takes the parser back to SEEK (R124, R125). -/
theorem parseByte_pstate_of_complete {b : Byte} {s : State} (h : (parseByte b s).2 = true) :
    (parseByte b s).1.pstate = .seek := by
  cases hp : s.pstate with
  | seek =>
    rw [parseByte_seek b hp] at h
    cases h
  | target =>
    rw [parseByte_target b hp] at h
    cases h
  | sub =>
    rw [parseByte_sub b hp] at h
    cases h
  | len =>
    rw [parseByte_len b hp] at h ⊢
    exact if_pos (of_decide_eq_true h)
  | body =>
    rw [parseByte_body b hp] at h ⊢
    exact if_pos (of_decide_eq_true h)

theorem mode_of_rxEnabled {s : State} (h : rxEnabled s = true) : s.mode = .run := by
  simp only [rxEnabled, Bool.and_eq_true, beq_iff_eq] at h
  exact h.2

theorem homeCnt_of_homeEndEnabled {s : State} (h : homeEndEnabled s = true) :
    s.homeCnt = homeBeats s.cfg s.homeSel := by
  simp only [homeEndEnabled, Bool.and_eq_true, decide_eq_true_eq] at h
  exact h.2

section keptByParts

variable {P : State → Prop} (hP : KeptByParts P) {s t u : State}

include hP

theorem KeptByParts.turnTaken {turn : Turn} (h : TurnTaken s turn u) (hs : P s) : P u := by
  cases h with
  | scheduled _ rest => exact hP.env rest s.rxQueue s.freeIdx hs
  | free => exact hP.env s.schedule s.rxQueue (s.freeIdx + 1) hs

theorem KeptByParts.rxByte {b : Byte} (h : exec (.rxByte b) s = .next t) (hs : P s) : P t := by
  obtain ⟨-, rfl⟩ | ⟨he, -, rfl⟩ | ⟨he, hdone, _, -, -, -, effect⟩ := execRxByte_cases h
  · exact hs
  · exact hP.parse b (mode_of_rxEnabled he) hs
  · have hm := mode_of_rxEnabled he
    exact hP.command ((parseByte_mode b s).trans hm) (parseByte_pstate_of_complete hdone) effect (hP.parse b hm hs)

/-- What every part keeps, every step keeps. -/
theorem KeptByParts.step (h : step s = .next t) (hs : P s) : P t := by
  obtain ⟨-, hexec⟩ | ⟨-, turn, u, taken, hturn⟩ := step_cases h
  · obtain ⟨-, rfl⟩ | ⟨-, hv, rfl⟩ := exec_powerOn_cases hexec
    · exact hs
    · exact hP.powerOn hv hs
  have hu : P u := hP.turnTaken taken hs
  obtain ⟨b, -, rfl⟩ | ⟨-, htick⟩ | ⟨-, hm, hcnt, hbeat⟩ | ⟨-, hm, -, hend⟩ | ⟨-, -, -, rfl⟩ | ⟨-, -, b, rest, -, hrx⟩ :=
    hturn
  · exact hP.env u.schedule (u.rxQueue ++ [b]) u.freeIdx hu
  · obtain ⟨-, rfl⟩ | ⟨-, rfl⟩ := exec_tick_cases htick
    · exact hP.tick hu
    · exact hu
  · obtain ⟨-, rfl⟩ | ⟨-, rfl⟩ := exec_homeBeat_cases hbeat
    · exact hP.homeBeat hm hcnt hu
    · exact hu
  · obtain ⟨he, rfl⟩ | ⟨-, rfl⟩ := exec_homeEnd_cases hend
    · exact hP.homeEnd hm (homeCnt_of_homeEndEnabled he) hu
    · exact hu
  · exact hu
  · exact hP.rxByte hrx (hP.env u.schedule rest u.freeIdx hu)

end keptByParts

/-! One lane in order, operation by operation. -/

section laneOk

variable {cfg : Config} {c : Nat} {l : Lane}

theorem two_le_two_pow_periodW (hv : cfg.valid = true) : 1 < 2 ^ cfg.periodW :=
  Nat.one_lt_two_pow (Nat.one_le_iff_ne_zero.mp (Config.one_le_periodW hv))

theorem laneOk_initial (hv : cfg.valid = true) (hc : c < cfg.nch) : LaneOk cfg c ⟨Channel.initial cfg c, 0⟩ where
  curPeriod_lt := Nat.two_pow_pos _
  origPeriod_lt := Nat.two_pow_pos _
  elapsed_lt := two_le_two_pow_periodW hv
  position_ge := le_rfl
  position_le := (Config.boundsOk hv hc).1.le
  bounds := .inl ⟨rfl, rfl⟩
  phase_lt := Config.stepTable_pos hv

theorem LaneOk.setPeriods (h : LaneOk cfg c l) {cur orig : Nat} (hcur : cur < 2 ^ cfg.periodW)
    (horig : orig < 2 ^ cfg.periodW) :
    LaneOk cfg c { l with ch := { l.ch with curPeriod := cur, origPeriod := orig } } :=
  { h with curPeriod_lt := hcur, origPeriod_lt := horig }

theorem LaneOk.silence (h : LaneOk cfg c l) : LaneOk cfg c { l with ch := silence l.ch } :=
  h.setPeriods (Nat.two_pow_pos _) (Nat.two_pow_pos _)

theorem LaneOk.setDir (h : LaneOk cfg c l) (d : Dir) : LaneOk cfg c { l with ch := { l.ch with dir := d } } :=
  { h with }

theorem nextPhase_lt {n : Nat} (hn : 0 < n) (d : Dir) (phase : Nat) : nextPhase n d phase < n := by
  cases d <;> exact Nat.mod_lt _ hn

/-- `apply(c)` writes the phase only, an index into the step table (R222, R233). -/
theorem LaneOk.applyLane (h : LaneOk cfg c l) (hv : cfg.valid = true) (level : Dir) :
    LaneOk cfg c (applyLane cfg c level l).lane := by
  have hphase := applyLane_phase cfg c level l
  have hch := applyLane_ch cfg c level l
  generalize (Machine.applyLane cfg c level l).lane = l' at hphase hch
  obtain ⟨ch, phase⟩ := l'
  obtain rfl : ch = l.ch := hch
  refine { h with phase_lt := fun hb => ?_ }
  rw [hphase, if_pos hb]
  exact nextPhase_lt (Config.stepTable_pos hv hb) ..

/-- A step from within a range that holds the bounds ends within it (R187). -/
theorem stepChannel_position_within_range {ch : Channel} {lo hi : Int} (hlo : lo ≤ ch.minPos)
    (hord : ch.minPos < ch.maxPos) (hhi : ch.maxPos ≤ hi) (hge : lo ≤ ch.position) (hle : ch.position ≤ hi) :
    lo ≤ (stepChannel ch).position ∧ (stepChannel ch).position ≤ hi := by
  rcases le_or_gt ch.maxPos ch.position with htop | htop
  · rw [stepChannel_of_atTop htop]
    dsimp only
    omega
  rcases le_or_gt ch.position ch.minPos with hbot | hbot
  · rw [stepChannel_of_atBottom htop hbot]
    dsimp only
    omega
  · have := stepChannel_position_oneUnit ch
    omega

/-- The bounds of a lane in order are in order and within the full range (R8, R26). -/
theorem LaneOk.bounds_within (h : LaneOk cfg c l) (hv : cfg.valid = true) (hc : c < cfg.nch) :
    cfg.fullMin c ≤ l.ch.minPos ∧ l.ch.minPos < l.ch.maxPos ∧ l.ch.maxPos ≤ cfg.fullMaxAt c := by
  obtain ⟨hfull, hmin, hord, hmax, -⟩ := Config.boundsOk hv hc
  obtain ⟨hlo, hhi⟩ | ⟨hlo, hhi⟩ := h.bounds
  · omega
  · omega

/-- A step with the count cleared (R183, R184). -/
theorem LaneOk.step (h : LaneOk cfg c l) (hv : cfg.valid = true) (hc : c < cfg.nch) :
    LaneOk cfg c { l with ch := stepChannel { l.ch with elapsed := 0 } } := by
  obtain ⟨hlo, hord, hhi⟩ := h.bounds_within hv hc
  obtain ⟨hge, hle⟩ := stepChannel_position_within_range (ch := { l.ch with elapsed := 0 }) hlo hord hhi
    h.position_ge h.position_le
  exact { h with elapsed_lt := two_le_two_pow_periodW hv, position_ge := hge, position_le := hle }

/-- TICK on a lane: a count below a period that fits stays one short of the last value (R182, R187). -/
theorem LaneOk.tickLane (h : LaneOk cfg c l) (hv : cfg.valid = true) (hc : c < cfg.nch) :
    LaneOk cfg c (tickLane cfg c l).lane := by
  have hcur := h.curPeriod_lt
  by_cases hsilent : l.ch.curPeriod = 0
  · rwa [tickLane_of_silent hsilent]
  by_cases hlt : l.ch.elapsed + 1 < l.ch.curPeriod
  · rw [tickLane_of_counting hlt]
    exact { h with elapsed_lt := by rw [LaneResult.idle_lane]; dsimp only; omega }
  · rw [tickLane_of_due ⟨hsilent, Nat.le_of_not_lt hlt⟩]
    exact (h.step hv hc).applyLane hv _

theorem LaneOk.homeBeginLane (h : LaneOk cfg c l) (sel : List Nat) : LaneOk cfg c (homeBeginLane cfg sel c l).lane := by
  rw [homeBeginLane_lane]
  split
  · exact h.silence.setDir .reverse
  · exact h

theorem LaneOk.homeBeatLane (h : LaneOk cfg c l) (hv : cfg.valid = true) (sel : List Nat) (cnt : Nat) :
    LaneOk cfg c (homeBeatLane cfg sel cnt c l).lane := by
  unfold Machine.homeBeatLane
  split
  · have htoggled : LaneOk cfg c { l with ch := toggleOut l.ch } := { h with }
    exact htoggled.applyLane hv _
  · exact h

/-- HOME_END puts the position at the lower end of the full range (R206, decision D7). -/
theorem LaneOk.homeEndLane (h : LaneOk cfg c l) (hv : cfg.valid = true) (hc : c < cfg.nch) (sel : List Nat) :
    LaneOk cfg c (homeEndLane cfg sel c l).lane := by
  rw [homeEndLane_lane]
  split
  · exact { h with
      elapsed_lt := two_le_two_pow_periodW hv
      position_ge := le_rfl
      position_le := (Config.boundsOk hv hc).1.le }
  · exact h

end laneOk

/-! All lanes in order. -/

/-- The part of the invariant that speaks of the lanes: one a channel, each in order. -/
structure LanesOk (cfg : Config) (lanes : List Lane) : Prop where
  length_eq : lanes.length = cfg.nch
  lane : ∀ (c : Nat) (l : Lane), lanes[c]? = some l → LaneOk cfg c l

theorem State.Inv.lanesOk {s : State} (h : s.Inv) : LanesOk s.cfg s.lanes := ⟨h.lanes_length, h.lane⟩

section lanesOk

variable {cfg : Config} {lanes : List Lane}

theorem LanesOk.lt_nch (h : LanesOk cfg lanes) {c : Nat} {l : Lane} (hl : lanes[c]? = some l) : c < cfg.nch := by
  rw [← h.length_eq]
  exact (List.getElem?_eq_some_iff.mp hl).1

/-- Work on each lane that keeps it in order. -/
theorem LanesOk.of_map (h : LanesOk cfg lanes) {lanes' : List Lane} {g : Nat → Lane → Lane}
    (hmap : ∀ c : Nat, lanes'[c]? = lanes[c]?.map (g c))
    (hok : ∀ (c : Nat) (l : Lane), lanes[c]? = some l → LaneOk cfg c (g c l)) : LanesOk cfg lanes' where
  length_eq := by
    have hmapIdx : lanes' = lanes.mapIdx g := by
      ext1 c
      rw [hmap, List.getElem?_mapIdx]
    rw [hmapIdx, List.length_mapIdx, h.length_eq]
  lane c l' hl' := by
    rw [hmap, Option.map_eq_some_iff] at hl'
    obtain ⟨l, hl, rfl⟩ := hl'
    exact hok c l hl

theorem LanesOk.modifyChan {s : State} (h : LanesOk s.cfg s.lanes) (c : Nat) {f : Channel → Channel}
    (hf : ∀ l, s.lanes[c]? = some l → LaneOk s.cfg c l → LaneOk s.cfg c { l with ch := f l.ch }) :
    LanesOk s.cfg (s.modifyChan c f).lanes := by
  refine h.of_map (g := fun k l => if c = k then { l with ch := f l.ch } else l)
    (fun k => State.modifyChan_getElem? ..) fun k l hl => ?_
  split
  · next hk =>
    subst hk
    exact hf l hl (h.lane c l hl)
  · exact h.lane k l hl

theorem lanesOk_initial (hv : cfg.valid = true) : LanesOk cfg (initialLanes cfg) where
  length_eq := initialLanes_length cfg
  lane c l hl := by
    rw [initialLanes_getElem?] at hl
    split at hl
    · cases hl
      exact laneOk_initial hv ‹_›
    · cases hl

end lanesOk

/-! The invariant, part by part of a step. -/

/-- While RUN the homing sequencer is in order when it is idle. -/
theorem homingOk_of_run {s : State} (hm : s.mode = .run) (hidle : s.homeSel = [] ∧ s.homeCnt = 0) : HomingOk s where
  idle_in_run _ := hidle
  set_ok h := by simp [hm] at h
  count_le h := by simp [hm] at h
  parser_seeks h := by simp [hm] at h
  selected_silent h := by simp [hm] at h

theorem parserOk_of_seek {s : State} (hseek : s.pstate = .seek) (hbody : s.fBody.length = 255) : ParserOk s where
  body_length := hbody
  target_accepted h := by simp [hseek] at h
  sub_accepted h := by simp [hseek] at h
  count_lt h := by simp [hseek] at h

theorem inv_initial {cfg : Config} (hv : cfg.valid = true) : (State.initial cfg).Inv where
  config := hv
  lanes_length := (lanesOk_initial hv).length_eq
  lane := (lanesOk_initial hv).lane
  latch_lt _ := Nat.two_pow_pos _
  parser := parserOk_of_seek rfl (State.initial_fBody_length cfg)
  homing := homingOk_of_run rfl ⟨rfl, rfl⟩

theorem valid_default : Config.default.valid = true := by decide +kernel

/-- Settles O58, by the registers of the initial state; the default configuration is valid by evaluation. -/
theorem invariantHoldsInitially : Obligations.InvariantHoldsInitially :=
  ⟨fun _ => inv_initial, inv_initial valid_default⟩

theorem State.Inv.withEnv {s : State} (h : s.Inv) (turns : List Turn) (queue : List Byte) (i : Nat) :
    (s.withEnv turns queue i).Inv :=
  { h with parser := { h.parser with }, homing := { h.homing with } }

/-- The parser after one more byte: an address it goes on with is accepted, a body it goes on with has bytes to come
(R121 to R125). -/
theorem ParserOk.parseByte {s : State} (h : ParserOk s) (b : Byte) : ParserOk (parseByte b s).1 := by
  cases hp : s.pstate with
  | seek =>
    rw [parseByte_seek b hp, rxSeek]
    split
    · exact { body_length := h.body_length, target_accepted := by simp, sub_accepted := by simp, count_lt := by simp }
    · exact h
  | target =>
    rw [parseByte_target b hp, rxTarget]
    split
    · next hb =>
      exact { body_length := h.body_length, target_accepted := fun _ => hb, sub_accepted := by simp, count_lt := by simp }
    · exact parserOk_of_seek rfl h.body_length
  | sub =>
    rw [parseByte_sub b hp, rxSub]
    split
    · next hb =>
      exact {
        body_length := h.body_length
        target_accepted := fun _ => h.target_accepted (.inl hp)
        sub_accepted := fun _ => hb
        count_lt := by simp }
    · exact parserOk_of_seek rfl h.body_length
  | len =>
    rw [parseByte_len b hp, rxLen]
    by_cases hb : b = 0
    · exact parserOk_of_seek (if_pos hb) h.body_length
    · exact {
        body_length := h.body_length
        target_accepted := fun _ => h.target_accepted (.inr (.inl hp))
        sub_accepted := fun _ => h.sub_accepted (.inl hp)
        count_lt := fun _ => Nat.pos_of_ne_zero fun h0 => hb (BitVec.eq_of_toNat_eq h0) }
  | body =>
    rw [parseByte_body b hp]
    have hlt := h.count_lt hp
    have hlen : (s.fBody.set s.fCnt.toNat b).length = 255 := by rw [List.length_set, h.body_length]
    by_cases hlast : s.fCnt + 1 = s.fLen
    · rw [rxBody_last hlast]
      exact parserOk_of_seek rfl hlen
    · rw [rxBody_more hlast]
      refine {
        body_length := hlen
        target_accepted := fun _ => h.target_accepted (.inr (.inr hp))
        sub_accepted := fun _ => h.sub_accepted (.inr hp)
        count_lt := fun _ => ?_ }
      dsimp only
      bv_omega

theorem State.Inv.parseByte {s : State} (h : s.Inv) (hm : s.mode = .run) (b : Byte) : (parseByte b s).1.Inv := by
  have hparser := h.parser.parseByte b
  rw [parseByte_frame] at hparser ⊢
  exact { h with parser := hparser, homing := homingOk_of_run hm (h.homing.idle_in_run hm) }

/-- A write of records while RUN. -/
theorem State.Inv.withLanes {s : State} (h : s.Inv) (hm : s.mode = .run) {lanes : List Lane}
    (hl : LanesOk s.cfg lanes) (trace : List Output) (i : Nat) :
    State.Inv { s with lanes := lanes, trace := trace, freeIdx := i } :=
  { h with
    lanes_length := hl.length_eq
    lane := hl.lane
    parser := { h.parser with }
    homing := homingOk_of_run hm (h.homing.idle_in_run hm) }

theorem State.Inv.modifyChan {s : State} (h : s.Inv) (hm : s.mode = .run) (c : Nat) {f : Channel → Channel}
    (hf : ∀ l, s.lanes[c]? = some l → LaneOk s.cfg c l → LaneOk s.cfg c { l with ch := f l.ch }) :
    (s.modifyChan c f).Inv :=
  h.withLanes hm (h.lanesOk.modifyChan c hf) s.trace s.freeIdx

/-- HOME_BEGIN of a homing set, the parser in SEEK (R203, R207). -/
theorem State.Inv.homeBegin {s : State} (h : s.Inv) (hseek : s.pstate = .seek) {sel : List Nat}
    (hsel : selectionOk s.cfg sel = true) : (homeBegin sel s).Inv := by
  have hlanes := h.lanesOk.of_map (State.overLanes_getElem? s (Machine.homeBeginLane s.cfg sel)) fun c l hl =>
    (h.lane c l hl).homeBeginLane sel
  exact {
    config := h.config
    lanes_length := hlanes.length_eq
    lane := hlanes.lane
    latch_lt := h.latch_lt
    parser := { h.parser with }
    homing := {
      idle_in_run := nofun
      set_ok := fun _ => hsel
      count_le := fun _ => Nat.zero_le _
      parser_seeks := fun _ => hseek
      selected_silent := fun _ c hc l' hl' => by
        obtain ⟨l, hl, rfl⟩ := Option.map_eq_some_iff.mp ((State.overLanes_getElem? ..).symm.trans hl')
        rw [homeBeginLane_ch, if_pos (show c ∈ sel from hc)]
        exact ⟨rfl, rfl, rfl⟩ } }

theorem romRead_lt {cfg : Config} (hv : cfg.valid = true) (note : Nat) : romRead cfg note < 2 ^ cfg.periodW := by
  unfold romRead
  split
  · exact Config.freqRom_lt hv note
  · exact Nat.two_pow_pos _

/-- Every effect of a command (R129, R141 to R151, R160 to R170, R200 to R203). -/
theorem State.Inv.command {s t : State} (h : s.Inv) (hm : s.mode = .run) (hseek : s.pstate = .seek)
    (effect : CommandEffect s t) : t.Inv := by
  have hlanes := h.lanesOk
  cases effect with
  | none => exact h
  | reply => exact h.withLanes hm hlanes _ s.freeIdx
  | home sel hsel => exact h.homeBegin hseek hsel
  | stop =>
    have hsilent := hlanes.of_map (lanes' := (s.modifyAll Machine.silence).lanes)
      (g := fun _ l => { l with ch := Machine.silence l.ch }) (by simp) fun c l hl => (h.lane c l hl).silence
    exact h.withLanes hm hsilent s.trace s.freeIdx
  | note c n =>
    have hp := romRead_lt h.config n
    exact h.modifyChan hm c fun _ _ hl => hl.setPeriods hp hp
  | off c => exact h.modifyChan hm c fun _ _ hl => hl.silence
  | bend c d _ hd =>
    refine h.modifyChan hm c fun l hget hl => hl.setPeriods ?_ hl.origPeriod_lt
    rw [State.chan_of_getElem? hget, bendDefined_iff] at hd
    obtain ⟨-, -, hfits⟩ := hd
    exact bendScale_lt hfits
  | draw c =>
    have hdrawn : s.drawFree.Inv := h.withEnv s.schedule s.rxQueue (s.freeIdx + 1)
    exact hdrawn.modifyChan hm c fun _ _ hl => hl.setPeriods (drawnPeriod_lt ..) hl.origPeriod_lt
  | full c => exact h.modifyChan hm c fun _ _ hl => { hl with bounds := .inl ⟨rfl, rfl⟩ }
  | constrained c => exact h.modifyChan hm c fun _ _ hl => { hl with bounds := .inr ⟨rfl, rfl⟩ }

/-- The latch after an operation over all lanes holds what it held or one bit a lane (R228, R229). -/
theorem State.overLanesThenCommit_srLatch (s : State) (f : Nat → Lane → LaneResult) :
    (s.overLanesThenCommit f).srLatch = s.srLatch ∨
      (s.overLanesThenCommit f).srLatch = packOuts (s.overLanesThenCommit f).lanes := by
  rw [State.overLanesThenCommit_lanes]
  unfold State.overLanesThenCommit
  split
  · obtain ⟨-, hlatch, -⟩ | ⟨-, hsame⟩ := commitBatch_cases (s.overLanes f)
    · exact .inr hlatch
    · exact .inl (by rw [hsame, State.overLanes_srLatch])
  · exact .inl rfl

/-- The latch holds one bit a channel, for which it has room (R8, R228). -/
theorem State.Inv.overLanesThenCommit_latch_lt {s : State} (h : s.Inv) (f : Nat → Lane → LaneResult)
    (hb : s.cfg.backend = .shiftRegister) : (s.overLanesThenCommit f).srLatch < 2 ^ s.cfg.srWidth := by
  obtain hlatch | hlatch := s.overLanesThenCommit_srLatch f
  · rw [hlatch]
    exact h.latch_lt hb
  · rw [hlatch]
    refine (packOuts_lt _).trans_le (Nat.pow_le_pow_right two_pos ?_)
    rw [State.overLanesThenCommit_lanes, State.overLanes_length, h.lanes_length]
    exact Config.srWidth_ge h.config hb

/-- TICK; a selected channel is silent, so TICK leaves it as it is (R181, R207). -/
theorem State.Inv.tick {s : State} (h : s.Inv) : (tick s).Inv := by
  have hlanes := h.lanesOk.of_map (tick_getElem? s) fun c l hl =>
    (h.lane c l hl).tickLane h.config (h.lanesOk.lt_nch hl)
  have hlatch := h.overLanesThenCommit_latch_lt (Machine.tickLane s.cfg)
  have hsilent : s.mode = .homing → ∀ c ∈ s.homeSel, ∀ l, (Machine.tick s).lanes[c]? = some l →
      l.ch.curPeriod = 0 ∧ l.ch.origPeriod = 0 ∧ l.ch.dir = .reverse := fun hm c hc l' hl' => by
    rw [tick_getElem?, Option.map_eq_some_iff] at hl'
    obtain ⟨l, hl, rfl⟩ := hl'
    have hl := h.homing.selected_silent hm c hc l hl
    rwa [tickLane_of_silent hl.1]
  rw [tick_frame]
  exact {
    config := h.config
    lanes_length := hlanes.length_eq
    lane := hlanes.lane
    latch_lt := hlatch
    parser := { h.parser with }
    homing := { h.homing with selected_silent := hsilent } }

/-- An enabled HOME_BEAT: one beat more, of those needed, and toggled outputs (R204, R205). -/
theorem State.Inv.homeBeat {s : State} (h : s.Inv) (hm : s.mode = .homing)
    (hcnt : s.homeCnt < homeBeats s.cfg s.homeSel) : (homeBeat s).Inv := by
  have hlanes := h.lanesOk.of_map (homeBeat_getElem? s) fun c l hl => (h.lane c l hl).homeBeatLane h.config ..
  have hcounted : State.Inv { s with homeCnt := s.homeCnt + 1 } :=
    { h with
      parser := { h.parser with }
      homing := { h.homing with idle_in_run := fun hrun => by simp [hm] at hrun, count_le := fun _ => hcnt } }
  have hlatch := hcounted.overLanesThenCommit_latch_lt (Machine.homeBeatLane s.cfg s.homeSel (s.homeCnt + 1))
  have hsilent : ∀ c ∈ s.homeSel, ∀ l, (Machine.homeBeat s).lanes[c]? = some l →
      l.ch.curPeriod = 0 ∧ l.ch.origPeriod = 0 ∧ l.ch.dir = .reverse := fun c hc l' hl' => by
    rw [homeBeat_getElem?, Option.map_eq_some_iff] at hl'
    obtain ⟨l, hl, rfl⟩ := hl'
    have hl := h.homing.selected_silent hm c hc l hl
    rw [homeBeatLane_ch]
    split <;> exact hl
  rw [homeBeat_frame]
  exact {
    hcounted with
    lanes_length := hlanes.length_eq
    lane := hlanes.lane
    latch_lt := hlatch
    parser := { h.parser with }
    homing := { hcounted.homing with selected_silent := fun _ => hsilent } }

/-- An enabled HOME_END: back to RUN with the sequencer idle (R206). -/
theorem State.Inv.homeEnd {s : State} (h : s.Inv) : (homeEnd s).Inv := by
  have hlanes := h.lanesOk.of_map (State.overLanes_getElem? s (Machine.homeEndLane s.cfg s.homeSel)) fun c l hl =>
    (h.lane c l hl).homeEndLane h.config (h.lanesOk.lt_nch hl) s.homeSel
  exact {
    config := h.config
    lanes_length := hlanes.length_eq
    lane := hlanes.lane
    latch_lt := h.latch_lt
    parser := { h.parser with }
    homing := homingOk_of_run rfl ⟨rfl, rfl⟩ }

/-- POWER_ON before the startup homing (R280). -/
theorem inv_powerOnCommit {s : State} (hv : s.cfg.valid = true) : (powerOnCommit (powerOnRegisters s)).Inv := by
  rw [powerOnCommit_frame]
  exact {
    config := hv
    lanes_length := (lanesOk_initial hv).length_eq
    lane := (lanesOk_initial hv).lane
    latch_lt := fun _ => Nat.two_pow_pos _
    parser := parserOk_of_seek rfl (powerOnRegisters_fBody_length s)
    homing := homingOk_of_run rfl ⟨rfl, rfl⟩ }

theorem inv_powerOn {s : State} (hv : s.cfg.valid = true) : (powerOn s).Inv := by
  have hcommit := inv_powerOnCommit hv
  unfold powerOn
  cases s.cfg.homeAtStartup with
  | false => exact hcommit
  | true =>
    refine hcommit.homeBegin (powerOnCommit_pstate _) ?_
    rw [powerOnCommit_cfg]
    exact selectionOk_range s.cfg

theorem keptByParts_inv : KeptByParts State.Inv where
  env turns queue i h := h.withEnv turns queue i
  parse b hm h := h.parseByte hm b
  command hm hseek effect h := h.command hm hseek effect
  tick h := h.tick
  homeBeat hm hcnt h := h.homeBeat hm hcnt
  homeEnd _ _ h := h.homeEnd
  powerOn hv _ := inv_powerOn hv

/-- Settles O59: each part of a step keeps the invariant. -/
theorem stepKeepsTheInvariant : Obligations.StepKeepsTheInvariant := fun _ _ h hstep => keptByParts_inv.step hstep h

end Sys2Proof.Machine

/-! PROOF. O55: the lifecycle of a channel (R43), from what each part of a step does to the mode and the homing set. -/

namespace Sys2Proof.Machine

/-! The lifecycle read off the registers (R43). -/

theorem life_eq_homing_iff (s : State) (c : Nat) : s.life c = .homing ↔ s.mode = .homing ∧ c ∈ s.homeSel := by
  unfold State.life
  split
  · simp [*]
  · split <;> simp [*]

theorem life_of_run {s : State} (hm : s.mode = .run) (c : Nat) :
    s.life c = if (s.chan c).curPeriod = 0 then .idle else .playing :=
  if_neg (by simp [hm])

theorem State.Inv.exists_lane {s : State} (h : s.Inv) {c : Nat} (hc : c < s.cfg.nch) : ∃ l, s.lanes[c]? = some l :=
  ⟨_, List.getElem?_eq_getElem (h.lanes_length ▸ hc)⟩

/-- A selected channel is silent while HOMING (R203, R207). -/
theorem State.Inv.chan_silent {s : State} (h : s.Inv) {c : Nat} (hc : c < s.cfg.nch) (hlife : s.life c = .homing) :
    (s.chan c).curPeriod = 0 := by
  obtain ⟨hm, hsel⟩ := (life_eq_homing_iff s c).mp hlife
  obtain ⟨l, hl⟩ := h.exists_lane hc
  rw [State.chan_of_getElem? hl]
  exact (h.homing.selected_silent hm c hsel l hl).1

/-- A channel plays exactly when its period is not 0. -/
theorem State.Inv.life_eq_playing_iff {s : State} (h : s.Inv) {c : Nat} (hc : c < s.cfg.nch) :
    s.life c = .playing ↔ 0 < (s.chan c).curPeriod := by
  by_cases hlife : s.life c = .homing
  · rw [h.chan_silent hc hlife, hlife]
    simp
  · rw [life_eq_homing_iff] at hlife
    rw [State.life, if_neg hlife, Nat.pos_iff_ne_zero]
    split <;> simp [*]

/-! What takes the block into HOMING, and what takes it out (R204, R210). -/

/-- A command that takes the block from RUN into HOMING is a reset with no beat done after it (R203, R210). -/
theorem homeCnt_of_command {s t : State} (hs : s.mode = .run) (ht : t.mode = .homing) (effect : CommandEffect s t) :
    t.homeCnt = 0 := by
  cases effect with
  | home => rfl
  | none | reply | stop | note | off | bend | draw | full | constrained => cases hs.symm.trans ht

/-- A received byte that takes the block into HOMING is the last one of a resetting command's frame (R126, R210). -/
theorem resetting_frame_of_rxByte {s t : State} {b : Byte} (h : exec (.rxByte b) s = .next t) (hs : s.mode = .run)
    (ht : t.mode = .homing) :
    s.pstate = .body ∧ s.fCnt + 1 = s.fLen ∧ t.homeCnt = 0 ∧ ∃ i,
      decodeMessage s.cfg (messageOf s.fTarget s.fSub ((s.fBody.set s.fCnt.toNat b).take s.fLen.toNat)) = .ok i ∧
      startsReset s.cfg i := by
  have hrun : (parseByte b s).1.mode = .run := (parseByte_mode b s).trans hs
  obtain ⟨-, rfl⟩ | ⟨-, -, rfl⟩ | ⟨-, hdone, i, hdecode, hi, hexec, effect⟩ := execRxByte_cases h
  · cases hs.symm.trans ht
  · cases hrun.symm.trans ht
  have hreset := startsReset_of_mode hi hexec hrun ht
  have hcnt := homeCnt_of_command hrun ht effect
  cases hp : s.pstate with
  | seek =>
    rw [parseByte_seek b hp] at hdone
    cases hdone
  | target =>
    rw [parseByte_target b hp] at hdone
    cases hdone
  | sub =>
    rw [parseByte_sub b hp] at hdone
    cases hdone
  | len =>
    -- a frame that ends with its length byte is the empty Message, which resets nothing
    rw [parseByte_len b hp] at hdone hdecode
    obtain rfl : b = 0 := of_decide_eq_true hdone
    obtain ⟨-, -, ⟨-, rfl⟩ | ⟨_, hcommand, -⟩⟩ := decodeMessage_cases hdecode
    · exact hreset.elim
    · cases hcommand
  | body =>
    rw [parseByte_body b hp] at hdone hdecode hreset
    exact ⟨rfl, of_decide_eq_true hdone, hcnt, i, hdecode, hreset⟩

/-- HOME_END leaves every channel where its period puts it, and a selected channel is silent: Idle (R206). -/
theorem life_homeEnd {s : State} (h : s.Inv) {c : Nat} (hc : c < s.cfg.nch) (hlife : s.life c = .homing) :
    (homeEnd s).life c = .idle := by
  obtain ⟨-, hsel⟩ := (life_eq_homing_iff s c).mp hlife
  obtain ⟨l, hl⟩ := h.exists_lane hc
  have hsilent := h.chan_silent hc hlife
  rw [State.chan_of_getElem? hl] at hsilent
  rw [life_of_run (homeEnd_mode s), State.chan_of_getElem? (homeEnd_getElem?_of_mem hsel hl), if_pos hsilent]

theorem TurnTaken.life_eq {s u : State} {turn : Turn} (h : TurnTaken s turn u) (c : Nat) : u.life c = s.life c := by
  cases h <;> rfl

theorem TurnTaken.inv {s u : State} {turn : Turn} (h : TurnTaken s turn u) (hs : s.Inv) : u.Inv :=
  keptByParts_inv.turnTaken h hs

theorem tick_life_eq_homing_iff (s : State) (c : Nat) : (tick s).life c = .homing ↔ s.life c = .homing := by
  rw [life_eq_homing_iff, life_eq_homing_iff, tick_frame]

theorem homeBeat_life_eq_homing_iff (s : State) (c : Nat) : (homeBeat s).life c = .homing ↔ s.life c = .homing := by
  rw [life_eq_homing_iff, life_eq_homing_iff, homeBeat_frame]

/-- Everything a step of a powered block can do to the homing of a channel: nothing, HOME_END, or the end of a frame. -/
theorem step_life_cases {s t : State} {c : Nat} (hp : s.powered = true) (h : step s = .next t) :
    (t.life c = .homing ↔ s.life c = .homing) ∨
    (∃ turn u, TurnTaken s turn u ∧ u.mode = .homing ∧ homeEndEnabled u = true ∧ t = homeEnd u) ∨
    (∃ turn u b queue, TurnTaken s turn u ∧ u.mode = .run ∧ u.rxQueue = b :: queue ∧
      exec (.rxByte b) { u with rxQueue := queue } = .next t) := by
  obtain ⟨hoff, -⟩ | ⟨-, turn, u, taken, hturn⟩ := step_cases h
  · cases hp.symm.trans hoff
  have hu := taken.life_eq c
  obtain ⟨b, -, rfl⟩ | ⟨-, htick⟩ | ⟨-, -, -, hbeat⟩ | ⟨-, hm, -, hend⟩ | ⟨-, -, -, rfl⟩ |
    ⟨-, hm, b, queue, hq, hrx⟩ := hturn
  · exact .inl (by rw [← hu]; rfl)
  · obtain ⟨-, rfl⟩ | ⟨-, rfl⟩ := exec_tick_cases htick
    · exact .inl (by rw [← hu, tick_life_eq_homing_iff])
    · exact .inl (by rw [hu])
  · obtain ⟨-, rfl⟩ | ⟨-, rfl⟩ := exec_homeBeat_cases hbeat
    · exact .inl (by rw [← hu, homeBeat_life_eq_homing_iff])
    · exact .inl (by rw [hu])
  · obtain ⟨he, rfl⟩ | ⟨-, rfl⟩ := exec_homeEnd_cases hend
    · exact .inr (.inl ⟨turn, u, taken, hm, he, rfl⟩)
    · exact .inl (by rw [hu])
  · exact .inl (by rw [hu])
  · exact .inr (.inr ⟨turn, u, b, queue, taken, hm, hq, hrx⟩)

/-- Settles O55: HOME_END is the only way out of Homing, and the end of a resetting frame the only way in. -/
theorem channelsFollowTheLifecycle : Obligations.ChannelsFollowTheLifecycle := by
  intro s t c h hc hp hstep
  refine ⟨h.life_eq_playing_iff hc, fun hout hin => ?_, fun hin hout => ?_⟩
  · obtain hsame | ⟨turn, u, -, -, -, rfl⟩ | ⟨turn, u, b, queue, taken, hm, hq, hrx⟩ := step_life_cases (c := c) hp hstep
    · exact absurd (hsame.mp hin) hout
    · rw [life_eq_homing_iff, homeEnd_mode] at hin
      cases hin.1
    · obtain ⟨ht, -⟩ := (life_eq_homing_iff t c).mp hin
      obtain ⟨hbody, hlast, hcnt, i, hdecode, hreset⟩ :=
        resetting_frame_of_rxByte (s := { u with rxQueue := queue }) hrx hm ht
      cases taken <;> exact ⟨hm, hbody, hlast, hcnt, b, queue, i, hq, hdecode, hreset⟩
  · obtain hsame | ⟨turn, u, taken, hm, he, rfl⟩ | ⟨turn, u, b, queue, taken, hm, hq, hrx⟩ :=
      step_life_cases (c := c) hp hstep
    · exact absurd (hsame.mpr hin) hout
    · rw [← taken.life_eq] at hin
      rw [← taken.cfg_eq] at hc
      refine ⟨life_homeEnd (taken.inv h) hc hin, rfl, ?_⟩
      have hdone := homeCnt_of_homeEndEnabled he
      cases taken <;> exact hdone
    · rw [← taken.life_eq, life_eq_homing_iff] at hin
      cases hm.symm.trans hin.1

end Sys2Proof.Machine

/-! PROOF. O25, O30: what TICK emits in each backend (R224, R229, R233), and that its work on a lane reads that lane alone
and no original period (R180, R188). -/

namespace Sys2Proof.Machine

/-! TICK on one lane: its events and its phase. -/

/-- A lane as a due step leaves its record, before `apply` (R183, R184). -/
def Lane.stepped (l : Lane) : Lane := { l with ch := stepChannel { l.ch with elapsed := 0 } }

@[simp] theorem Lane.stepped_dir (l : Lane) : l.stepped.ch.dir = stepDir l.ch := rfl
@[simp] theorem Lane.stepped_out (l : Lane) : l.stepped.ch.out = !l.ch.out := rfl
@[simp] theorem Lane.stepped_phase (l : Lane) : l.stepped.phase = l.phase := rfl

/-- A lane that steps emits what `apply` emits for its new record, any other nothing (R180 to R184). -/
theorem tickLane_outs (cfg : Config) (c : Nat) (l : Lane) :
    (tickLane cfg c l).outs =
      if stepDue l then (applyLane cfg c l.ch.dir l.stepped).outs
      else [] := by
  by_cases hdue : stepDue l
  · rw [tickLane_of_due hdue, if_pos hdue]
    rfl
  · rw [if_neg hdue]
    by_cases hsilent : l.ch.curPeriod = 0
    · rw [tickLane_of_silent hsilent, LaneResult.idle_outs]
    · have hlt : l.ch.elapsed + 1 < l.ch.curPeriod := Nat.lt_of_not_le fun hge => hdue ⟨hsilent, hge⟩
      rw [tickLane_of_counting hlt, LaneResult.idle_outs]

/-- The phase moves with a step in the H-bridge backend only, by the new direction (R233, R237). -/
theorem tickLane_phase (cfg : Config) (c : Nat) (l : Lane) :
    (tickLane cfg c l).lane.phase =
      if cfg.backend = .hBridge ∧ stepDue l then nextPhase cfg.stepTable.length (stepDir l.ch) l.phase
      else l.phase := by
  by_cases hdue : stepDue l
  · rw [tickLane_of_due hdue, stepLane, applyLane_phase, ite_and, if_pos hdue]
    rfl
  · rw [if_neg fun h => hdue h.2]
    by_cases hsilent : l.ch.curPeriod = 0
    · rw [tickLane_of_silent hsilent, LaneResult.idle_lane]
    · have hlt : l.ch.elapsed + 1 < l.ch.curPeriod := Nat.lt_of_not_le fun hge => hdue ⟨hsilent, hge⟩
      rw [tickLane_of_counting hlt, LaneResult.idle_lane]

/-! TICK as an operation, by backend. -/

theorem tick_lanes (s : State) : (tick s).lanes = s.lanes.mapIdx fun c l => (tickLane s.cfg c l).lane :=
  State.overLanesThenCommit_lanes ..

theorem tick_phases (s : State) :
    (tick s).lanes.map (·.phase) = s.lanes.map fun l =>
      if s.cfg.backend = .hBridge ∧ stepDue l then nextPhase s.cfg.stepTable.length (stepDir l.ch) l.phase
      else l.phase := by
  rw [tick_lanes]
  exact List.ext_getElem (by simp) fun c _ _ => by simp [tickLane_phase]

/-- Where no shift register is committed, TICK emits what `apply` emits for the lanes that step, in ascending order. -/
theorem tick_of_not_shiftRegister {s : State} (h : s.cfg.backend ≠ .shiftRegister) :
    (tick s).srLatch = s.srLatch ∧ (tick s).trace = s.trace ++ (s.lanes.mapIdx fun c l =>
      if stepDue l then (applyLane s.cfg c l.ch.dir l.stepped).outs
      else []).flatten := by
  rw [tick, State.overLanesThenCommit_of_not_shiftRegister h]
  exact ⟨rfl, by simp only [State.overLanes_trace, tickLane_outs]⟩

/-- In the shift-register backend the lanes themselves emit nothing (R227). -/
theorem overLanes_tick_trace_of_shiftRegister {s : State} (h : s.cfg.backend = .shiftRegister) :
    (s.overLanes (tickLane s.cfg)).trace = s.trace := by
  simp [tickLane_outs, applyLane_of_shiftRegister h, flatten_mapIdx_nil]

/-- A TICK in which some lane steps commits the shift register once (R229). -/
theorem tick_of_shiftRegister_due {s : State} (h : s.cfg.backend = .shiftRegister) {l : Lane} (hl : l ∈ s.lanes)
    (hdue : stepDue l) :
    (tick s).srLatch = packOuts (tick s).lanes ∧ (tick s).trace = s.trace ++ [.srCommit (packOuts (tick s).lanes)] := by
  obtain ⟨c, hc, rfl⟩ := List.mem_iff_getElem.mp hl
  have hacted : s.anyActed (tickLane s.cfg) = true := by
    rw [State.anyActed_iff]
    exact ⟨c, s.lanes[c], List.getElem?_eq_getElem hc, (tickLane_acted ..).mpr hdue⟩
  have := State.overLanesThenCommit_of_acted h hacted
  rwa [overLanes_tick_trace_of_shiftRegister h] at this

/-- A TICK in which no lane steps commits nothing (R229). -/
theorem tick_of_shiftRegister_not_due {s : State} (h : s.cfg.backend = .shiftRegister)
    (hnone : ∀ l ∈ s.lanes, ¬ stepDue l) : (tick s).srLatch = s.srLatch ∧ (tick s).trace = s.trace := by
  have hacted : ¬ s.anyActed (tickLane s.cfg) = true := by
    rw [State.anyActed_iff]
    rintro ⟨c, l, hl, hacted⟩
    exact hnone l (List.mem_of_getElem? hl) ((tickLane_acted ..).mp hacted)
  rw [tick, State.overLanesThenCommit, if_neg hacted]
  exact ⟨rfl, overLanes_tick_trace_of_shiftRegister h⟩

/-- Settles O25, backend by backend, from the events and the phase of one lane. -/
theorem tickDrivesTheBackend : Obligations.TickDrivesTheBackend := by
  refine fun s => ⟨exec_tick_of_powered, fun hb => ?_, fun hb => ⟨?_, fun ⟨l, hl, hdue⟩ => tick_of_shiftRegister_due hb hl hdue,
    tick_of_shiftRegister_not_due hb⟩, fun hb => ?_⟩
  · obtain ⟨hlatch, htrace⟩ := tick_of_not_shiftRegister (s := s) (by simp [hb])
    refine ⟨hlatch, by simp [tick_phases, hb], htrace.trans ?_⟩
    simp only [applyLane_of_directPin hb, dirPinWrites, Lane.stepped_dir, Lane.stepped_out, eq_comm (b := stepDir _)]
  · simp [tick_phases, hb]
  · obtain ⟨hlatch, htrace⟩ := tick_of_not_shiftRegister (s := s) (by simp [hb])
    refine ⟨hlatch, by simp [tick_phases, hb], htrace.trans ?_⟩
    simp only [applyLane_of_hBridge hb, Lane.stepped_dir, Lane.stepped_phase]

/-! TICK never reads an original period (R180). -/

/-- A lane with its original period rewritten. -/
def Lane.mapOrigPeriod (f : Nat → Nat) (l : Lane) : Lane :=
  { l with ch := { l.ch with origPeriod := f l.ch.origPeriod } }

/-- A state with every original period rewritten. -/
def State.mapOrigPeriod (f : Nat → Nat) (s : State) : State := { s with lanes := s.lanes.map (Lane.mapOrigPeriod f) }

theorem applyLane_mapOrigPeriod (f : Nat → Nat) (cfg : Config) (c : Nat) (level : Dir) (l : Lane) :
    applyLane cfg c level (l.mapOrigPeriod f) =
      { applyLane cfg c level l with lane := (applyLane cfg c level l).lane.mapOrigPeriod f } := by
  unfold applyLane
  split <;> rfl

theorem tickLane_mapOrigPeriod (f : Nat → Nat) (cfg : Config) (c : Nat) (l : Lane) :
    tickLane cfg c (l.mapOrigPeriod f) =
      { tickLane cfg c l with lane := (tickLane cfg c l).lane.mapOrigPeriod f } := by
  by_cases hsilent : l.ch.curPeriod = 0
  · rw [tickLane_of_silent hsilent, tickLane_of_silent (l := l.mapOrigPeriod f) hsilent]
    rfl
  by_cases hlt : l.ch.elapsed + 1 < l.ch.curPeriod
  · rw [tickLane_of_counting hlt, tickLane_of_counting (l := l.mapOrigPeriod f) hlt]
    rfl
  · have hdue : stepDue l := ⟨hsilent, Nat.le_of_not_lt hlt⟩
    rw [tickLane_of_due hdue, tickLane_of_due (l := l.mapOrigPeriod f) hdue]
    exact applyLane_mapOrigPeriod f cfg c l.ch.dir l.stepped

theorem packOuts_map_of_out {g : Lane → Lane} (hg : ∀ l, (g l).ch.out = l.ch.out) (lanes : List Lane) :
    packOuts (lanes.map g) = packOuts lanes := by
  induction lanes with
  | nil => rfl
  | cons l lanes ih => rw [List.map_cons, packOuts_cons, packOuts_cons, hg, ih]

theorem commitBatch_mapOrigPeriod (f : Nat → Nat) (s : State) :
    commitBatch (s.mapOrigPeriod f) = (commitBatch s).mapOrigPeriod f := by
  by_cases hb : s.cfg.backend = .shiftRegister
  · have hpacked : packOuts (s.mapOrigPeriod f).lanes = packOuts s.lanes :=
      packOuts_map_of_out (g := Lane.mapOrigPeriod f) (fun _ => rfl) s.lanes
    rw [commitBatch_of_shiftRegister hb, commitBatch_of_shiftRegister (s := s.mapOrigPeriod f) hb, hpacked]
    rfl
  · rw [commitBatch_of_not_shiftRegister hb, commitBatch_of_not_shiftRegister (s := s.mapOrigPeriod f) hb]

theorem mapIdx_map {α β γ : Type} (g : α → β) (f : Nat → β → γ) (xs : List α) :
    (xs.map g).mapIdx f = xs.mapIdx fun c x => f c (g x) :=
  List.ext_getElem (by simp) (by simp)

theorem map_mapIdx {α β γ : Type} (g : β → γ) (f : Nat → α → β) (xs : List α) :
    (xs.mapIdx f).map g = xs.mapIdx fun c x => g (f c x) :=
  List.ext_getElem (by simp) (by simp)

/-- Work on the lanes that is blind to the original periods commutes with rewriting them. -/
theorem overLanesThenCommit_mapOrigPeriod (f : Nat → Nat) {F : Nat → Lane → LaneResult}
    (hF : ∀ c l, F c (l.mapOrigPeriod f) = { F c l with lane := (F c l).lane.mapOrigPeriod f }) (s : State) :
    (s.mapOrigPeriod f).overLanesThenCommit F = (s.overLanesThenCommit F).mapOrigPeriod f := by
  have hacted : (s.mapOrigPeriod f).anyActed F = s.anyActed F := by
    simp [State.anyActed, State.mapOrigPeriod, mapIdx_map, hF]
  have hlanes : (s.mapOrigPeriod f).overLanes F = (s.overLanes F).mapOrigPeriod f := by
    simp [State.overLanes, State.mapOrigPeriod, mapIdx_map, map_mapIdx, hF]
  rw [State.overLanesThenCommit, State.overLanesThenCommit, hacted, hlanes]
  split
  · exact commitBatch_mapOrigPeriod f _
  · rfl

/-- Settles O30: the lane after TICK is the work on that lane, and that work is blind to ORIG_PERIOD. -/
theorem lanesAreIndependentInATick : Obligations.LanesAreIndependentInATick := by
  refine ⟨fun s s' c hcfg hlane => ?_, fun s f => ?_⟩
  · rw [tick_getElem?, tick_getElem?, hcfg, hlane]
  · exact overLanesThenCommit_mapOrigPeriod f (tickLane_mapOrigPeriod f s.cfg) s

end Sys2Proof.Machine

/-! PROOF. O50, O51: the pins, the bridges and the latch follow the registers along every step (R224, R229, R233, R235,
R282). Each is a reading of the trace that the parts of a step keep in step with the lanes. -/

namespace Sys2Proof.Machine

/-! The readings of the trace, event by event. -/

/-- The level of a pin after one more event (R224). -/
def Output.onPin (pin : Pin) (level : Bool) : Output → Bool
  | .pinWrite p l => if p = pin then l else level
  | .srCommit _ => level
  | .bridgeWrite _ _ => level
  | .txBytes _ => level

/-- The pattern on a bridge after one more event (R233, R235). -/
def Output.onBridge (c : Nat) (pattern : Nat) : Output → Nat
  | .pinWrite _ _ => pattern
  | .srCommit _ => pattern
  | .bridgeWrite k w => if k = c then w else pattern
  | .txBytes _ => pattern

theorem pinLevel_append (pin : Pin) (trace outs : List Output) :
    pinLevel pin (trace ++ outs) = outs.foldl (Output.onPin pin) (pinLevel pin trace) :=
  List.foldl_append

theorem bridgeLevel_append_eq_foldl (c : Nat) (trace outs : List Output) :
    bridgeLevel c (trace ++ outs) = outs.foldl (Output.onBridge c) (bridgeLevel c trace) :=
  List.foldl_append

theorem committedWords_append (trace outs : List Output) :
    committedWords (trace ++ outs) = committedWords trace ++ committedWords outs :=
  List.filterMap_append

/-- The channel whose pin it is (R221). -/
def Pin.channel : Pin → Nat
  | .step c => c
  | .dir c => c

theorem Output.onPin_of_not_drives {pin : Pin} {o : Output} (h : o.drives pin.channel = false) (level : Bool) :
    o.onPin pin level = level := by
  cases o with
  | pinWrite p l =>
    refine if_neg ?_
    rintro rfl
    cases p <;> simp [Output.drives, Pin.channel] at h
  | srCommit | bridgeWrite | txBytes => rfl

theorem Output.onBridge_of_not_drives {c : Nat} {o : Output} (h : o.drives c = false) (pattern : Nat) :
    o.onBridge c pattern = pattern := by
  cases o with
  | bridgeWrite k w => exact if_neg (by simpa [Output.drives] using h)
  | srCommit | pinWrite | txBytes => rfl

/-! Work on all lanes in which each lane drives its own channel only (R76, R188). -/

/-- The events of a lane drive no other channel. -/
def DrivesOwn (f : Nat → Lane → LaneResult) : Prop :=
  ∀ (k c : Nat) (l : Lane), k ≠ c → ∀ o ∈ (f k l).outs, o.drives c = false

/-- A reading that only events of channel `c` change sees the events of lane `c` alone. -/
theorem DrivesOwn.foldl_outs {f : Nat → Lane → LaneResult} (hf : DrivesOwn f) {β : Type} {read : β → Output → β}
    {c : Nat} (hread : ∀ (o : Output) (b : β), o.drives c = false → read b o = b) {lanes : List Lane} {l : Lane}
    (hl : lanes[c]? = some l) (b : β) :
    ((lanes.mapIdx fun k m => (f k m).outs).flatten).foldl read b = (f c l).outs.foldl read b := by
  have hseen : ∀ (outs : List Output) (b : β), outs.foldl read b = (outs.filter (Output.drives c)).foldl read b := by
    intro outs b
    rw [List.foldl_filter]
    refine List.foldl_ext _ _ _ fun b o _ => ?_
    split
    · rfl
    · next h => exact hread o b (Bool.eq_false_of_not_eq_true h)
  have hother : ∀ k m, k ≠ c → (f k m).outs.filter (Output.drives c) = [] := fun k m hk => by
    simpa using hf k c m hk
  rw [hseen, List.filter_flatten, map_mapIdx,
    flatten_mapIdx_of_only (g := fun k m => (f k m).outs.filter (Output.drives c)) hother, hl, Option.map_some,
    Option.getD_some, ← hseen]

theorem dirPinWrites_drives {k c : Nat} (hk : k ≠ c) (level now : Dir) :
    ∀ o ∈ dirPinWrites k level now, o.drives c = false := by
  unfold dirPinWrites
  split <;> simp [Output.drives, hk]

theorem dirUpdate_drives {k c : Nat} (hk : k ≠ c) (cfg : Config) (level now : Dir) :
    ∀ o ∈ dirUpdate cfg k level now, o.drives c = false := by
  rw [dirUpdate_eq]
  split
  · exact dirPinWrites_drives hk level now
  · simp

theorem drivesOwn_tickLane (cfg : Config) : DrivesOwn (tickLane cfg) := fun _ _ _ hk =>
  tickLane_outs_drive fun h => absurd h hk

theorem drivesOwn_homeBeatLane (cfg : Config) (sel : List Nat) (cnt : Nat) : DrivesOwn (homeBeatLane cfg sel cnt) := by
  intro k c l hk
  unfold homeBeatLane
  split
  · exact applyLane_outs_drive hk _ _
  · simp

theorem drivesOwn_homeBeginLane (cfg : Config) (sel : List Nat) : DrivesOwn (homeBeginLane cfg sel) := by
  intro k c l hk
  rw [homeBeginLane_outs]
  split
  · exact dirUpdate_drives hk cfg _ _
  · simp

theorem drivesOwn_homeEndLane (cfg : Config) (sel : List Nat) : DrivesOwn (homeEndLane cfg sel) := by
  intro k c l hk
  rw [homeEndLane_outs]
  split
  · exact dirUpdate_drives hk cfg _ _
  · simp

/-! Commands write no output register and drive no pin, but for the start of a reset. -/

/-- A lane as before in what the outputs show: OUT, DIR and the phase. -/
structure SameOutputs (l l' : Lane) : Prop where
  out : l'.ch.out = l.ch.out
  dir : l'.ch.dir = l.ch.dir
  phase : l'.phase = l.phase

theorem SameOutputs.refl (l : Lane) : SameOutputs l l := ⟨rfl, rfl, rfl⟩

/-- What a command that starts no reset leaves of the outputs: the lanes in what the outputs show, the latch, and a trace
that only grows by bytes sent. -/
structure KeepsOutputs (s t : State) : Prop where
  lanes : ∃ g : Nat → Lane → Lane, (∀ c : Nat, t.lanes[c]? = s.lanes[c]?.map (g c)) ∧ ∀ c l, SameOutputs l (g c l)
  trace : ∃ sent : List (List Byte), t.trace = s.trace ++ sent.map .txBytes
  srLatch : t.srLatch = s.srLatch
  cfg : t.cfg = s.cfg

theorem KeepsOutputs.exists_lane {s t : State} (h : KeepsOutputs s t) {c : Nat} {l' : Lane}
    (hl' : t.lanes[c]? = some l') : ∃ l, s.lanes[c]? = some l ∧ SameOutputs l l' := by
  obtain ⟨g, hlanes, hg⟩ := h.lanes
  rw [hlanes, Option.map_eq_some_iff] at hl'
  obtain ⟨l, hl, rfl⟩ := hl'
  exact ⟨l, hl, hg c l⟩

theorem KeepsOutputs.outs_eq {s t : State} (h : KeepsOutputs s t) :
    t.lanes.map (·.ch.out) = s.lanes.map (·.ch.out) := by
  obtain ⟨g, hlanes, hg⟩ := h.lanes
  ext1 c
  rw [List.getElem?_map, List.getElem?_map, hlanes, Option.map_map]
  exact Option.map_congr fun l _ => (hg c l).out

theorem KeepsOutputs.of_drawFree {s t : State} (h : KeepsOutputs s.drawFree t) : KeepsOutputs s t := { h with }

/-- A command that adds to the trace only. -/
theorem keepsOutputs_of_lanes_eq {s t : State} {sent : List (List Byte)} (hlanes : t.lanes = s.lanes)
    (htrace : t.trace = s.trace ++ sent.map .txBytes) (hlatch : t.srLatch = s.srLatch) (hcfg : t.cfg = s.cfg) :
    KeepsOutputs s t :=
  ⟨⟨fun _ l => l, fun c => by simp [hlanes], fun _ => .refl⟩, ⟨sent, htrace⟩, hlatch, hcfg⟩

/-- A write of one record that keeps its output and direction. -/
theorem keepsOutputs_modifyChan (s : State) (c : Nat) {f : Channel → Channel}
    (hf : ∀ ch, (f ch).out = ch.out ∧ (f ch).dir = ch.dir) : KeepsOutputs s (s.modifyChan c f) where
  lanes := by
    refine ⟨fun k l => if c = k then { l with ch := f l.ch } else l, fun k => s.modifyChan_getElem? c k f, fun k l => ?_⟩
    dsimp only
    split
    · exact ⟨(hf l.ch).1, (hf l.ch).2, rfl⟩
    · exact .refl l
  trace := ⟨[], by simp⟩
  srLatch := rfl
  cfg := rfl

theorem keepsOutputs_modifyAll (s : State) {f : Channel → Channel}
    (hf : ∀ ch, (f ch).out = ch.out ∧ (f ch).dir = ch.dir) : KeepsOutputs s (s.modifyAll f) where
  lanes := ⟨fun _ l => { l with ch := f l.ch }, by simp, fun _ l => ⟨(hf l.ch).1, (hf l.ch).2, rfl⟩⟩
  trace := ⟨[], by simp⟩
  srLatch := rfl
  cfg := rfl

theorem CommandEffect.keepsOutputs_or_home {s t : State} (h : CommandEffect s t) :
    KeepsOutputs s t ∨ ∃ sel, t = homeBegin sel s := by
  cases h with
  | home sel => exact .inr ⟨sel, rfl⟩
  | none => exact .inl (keepsOutputs_of_lanes_eq (sent := []) rfl (by simp) rfl rfl)
  | reply => exact .inl (keepsOutputs_of_lanes_eq (sent := [livenessReply s.cfg]) rfl rfl rfl rfl)
  | stop => exact .inl (keepsOutputs_modifyAll s fun _ => ⟨rfl, rfl⟩)
  | draw c => exact .inl (.of_drawFree (keepsOutputs_modifyChan s.drawFree c fun _ => ⟨rfl, rfl⟩))
  | note c | off c | bend c | full c | constrained c =>
    exact .inl (keepsOutputs_modifyChan s c fun _ => ⟨rfl, rfl⟩)

/-! The direct-pin backend (R224). -/

/-- The events of lane `c` take its pins from the old record to the new one. -/
def MovesPins (c : Nat) (l : Lane) (r : LaneResult) : Prop :=
  r.outs.foldl (Output.onPin (.step c)) l.ch.out = r.lane.ch.out ∧
  r.outs.foldl (Output.onPin (.dir c)) l.ch.dir.level = r.lane.ch.dir.level

theorem movesPins_idle {c : Nat} {l l' : Lane} (hout : l'.ch.out = l.ch.out) (hdir : l'.ch.dir = l.ch.dir) :
    MovesPins c l (LaneResult.idle l') :=
  ⟨hout.symm, congrArg Dir.level hdir.symm⟩

theorem foldl_onPin_dirPinWrites (c : Nat) (level now : Dir) (out : Bool) :
    (dirPinWrites c level now).foldl (Output.onPin (.step c)) out = out ∧
    (dirPinWrites c level now).foldl (Output.onPin (.dir c)) level.level = now.level := by
  by_cases h : level = now
  · subst h
    simp
  · simp [dirPinWrites_of_ne h, Output.onPin]

section directPin

variable {cfg : Config} (hb : cfg.backend = .directPin) (c : Nat) (l : Lane)

include hb

theorem movesPins_applyLane {l' : Lane} :
    MovesPins c l (applyLane cfg c l.ch.dir l') := by
  obtain ⟨hstep, hdir⟩ := foldl_onPin_dirPinWrites c l.ch.dir l'.ch.dir l.ch.out
  simp [MovesPins, applyLane_of_directPin hb, List.foldl_append, hdir, Output.onPin]

theorem movesPins_dirUpdate {l' : Lane} (hout : l'.ch.out = l.ch.out) :
    MovesPins c l ⟨l', dirUpdate cfg c l.ch.dir l'.ch.dir, false⟩ := by
  obtain ⟨hstep, hdir⟩ := foldl_onPin_dirPinWrites c l.ch.dir l'.ch.dir l.ch.out
  rw [dirUpdate_of_directPin hb]
  exact ⟨hstep.trans hout.symm, hdir⟩

theorem movesPins_tickLane : MovesPins c l (tickLane cfg c l) := by
  by_cases hsilent : l.ch.curPeriod = 0
  · rw [tickLane_of_silent hsilent]
    exact movesPins_idle rfl rfl
  by_cases hlt : l.ch.elapsed + 1 < l.ch.curPeriod
  · rw [tickLane_of_counting hlt]
    exact movesPins_idle rfl rfl
  · rw [tickLane_of_due ⟨hsilent, Nat.le_of_not_lt hlt⟩]
    exact movesPins_applyLane hb c l

theorem movesPins_homeBeatLane (sel : List Nat) (cnt : Nat) : MovesPins c l (homeBeatLane cfg sel cnt c l) := by
  unfold homeBeatLane
  split
  · exact movesPins_applyLane hb c l
  · exact movesPins_idle rfl rfl

theorem movesPins_homeBeginLane (sel : List Nat) : MovesPins c l (homeBeginLane cfg sel c l) := by
  unfold homeBeginLane
  split
  · exact movesPins_dirUpdate hb c l rfl
  · exact movesPins_idle rfl rfl

theorem movesPins_homeEndLane (sel : List Nat) : MovesPins c l (homeEndLane cfg sel c l) := by
  unfold homeEndLane
  split
  · exact movesPins_dirUpdate hb c l rfl
  · exact movesPins_idle rfl rfl

end directPin

/-- Work on all lanes whose events move each lane's pins with its record. -/
theorem PinsFollow.overLanes {s : State} (h : PinsFollow s) {f : Nat → Lane → LaneResult} (hown : DrivesOwn f)
    (hmoves : ∀ c l, MovesPins c l (f c l)) : PinsFollow (s.overLanes f) := by
  intro c l' hl'
  rw [State.overLanes_getElem?, Option.map_eq_some_iff] at hl'
  obtain ⟨l, hl, rfl⟩ := hl'
  obtain ⟨hout, hdir⟩ := h c l hl
  rw [State.overLanes_trace, pinLevel_append, pinLevel_append, hout, hdir,
    hown.foldl_outs (fun _ b ho => Output.onPin_of_not_drives (pin := .step c) ho b) hl,
    hown.foldl_outs (fun _ b ho => Output.onPin_of_not_drives (pin := .dir c) ho b) hl]
  exact hmoves c l

theorem pinLevel_append_sent (pin : Pin) (trace : List Output) (sent : List (List Byte)) :
    pinLevel pin (trace ++ sent.map .txBytes) = pinLevel pin trace := by
  induction sent generalizing trace with
  | nil => simp
  | cons bytes sent ih =>
    rw [List.map_cons, List.append_cons, ih, pinLevel_append]
    rfl

theorem PinsFollow.of_keepsOutputs {s t : State} (h : PinsFollow s) (hk : KeepsOutputs s t) : PinsFollow t := by
  intro c l' hl'
  obtain ⟨l, hl, hsame⟩ := hk.exists_lane hl'
  obtain ⟨sent, htrace⟩ := hk.trace
  rw [htrace, pinLevel_append_sent, pinLevel_append_sent, hsame.out, hsame.dir]
  exact h c l hl

/-- After POWER_ON the step pins are at 0, as every OUT is, and the direction pins where the startup homing puts them. -/
theorem pinsFollow_powerOn {s : State} (hb : s.cfg.backend = .directPin) : PinsFollow (powerOn s) := by
  intro c l hl
  rw [powerOn_lanes, List.getElem?_map, Option.map_eq_some_iff] at hl
  obtain ⟨k, hk, rfl⟩ := hl
  obtain ⟨hlt, rfl⟩ : c < s.cfg.nch ∧ c = k := by
    obtain ⟨hlt, hget⟩ := List.getElem?_eq_some_iff.mp hk
    exact ⟨by simpa using hlt, by simpa using hget⟩
  rw [pinLevel_powerOn, pinLevel_powerOn]
  refine ⟨decide_eq_false (step_notMem_startupDirPins s.cfg c), ?_⟩
  simp only [dir_mem_startupDirPins_iff, hb, hlt]
  cases s.cfg.homeAtStartup <;> rfl

/-- The direct-pin part of O50 as a property of one state. -/
def DirectPinsFollow (s : State) : Prop := s.cfg.backend = .directPin ∧ PinsFollow s

theorem keptByParts_directPinsFollow : KeptByParts DirectPinsFollow where
  env _ _ _ h := h
  parse {s} b _ h := by
    rw [parseByte_frame]
    exact h
  command {s t} _ _ effect h := by
    obtain ⟨hb, hpins⟩ := h
    obtain hk | ⟨sel, rfl⟩ := effect.keepsOutputs_or_home
    · exact ⟨effect.cfg_eq ▸ hb, hpins.of_keepsOutputs hk⟩
    · exact ⟨hb, hpins.overLanes (drivesOwn_homeBeginLane _ sel) fun c l => movesPins_homeBeginLane hb c l sel⟩
  tick {s} h := by
    obtain ⟨hb, hpins⟩ := h
    rw [tick, State.overLanesThenCommit_of_not_shiftRegister (by simp [hb])]
    exact ⟨hb, hpins.overLanes (drivesOwn_tickLane _) (movesPins_tickLane hb)⟩
  homeBeat {s} _ _ h := by
    obtain ⟨hb, hpins⟩ := h
    have hcounted : PinsFollow { s with homeCnt := s.homeCnt + 1 } := hpins
    rw [homeBeat_eq, State.overLanesThenCommit_of_not_shiftRegister (by simp [hb])]
    exact ⟨hb, hcounted.overLanes (drivesOwn_homeBeatLane _ _ _) fun c l => movesPins_homeBeatLane hb c l ..⟩
  homeEnd {s} _ _ h := by
    obtain ⟨hb, hpins⟩ := h
    exact ⟨hb, hpins.overLanes (drivesOwn_homeEndLane _ _) fun c l => movesPins_homeEndLane hb c l _⟩
  powerOn {s} _ h := ⟨(powerOn_cfg s).symm ▸ h.1, pinsFollow_powerOn h.1⟩

/-! The H-bridge backend (R233, R235). -/

/-- The events of lane `c` leave its bridge and its phase, or put the table entry of the new phase on the bridge. -/
def MovesBridge (cfg : Config) (c : Nat) (l : Lane) (r : LaneResult) : Prop :=
  (r.outs = [] ∧ r.lane.phase = l.phase) ∨ r.outs = [.bridgeWrite c (tableRead cfg r.lane.phase)]

section hBridge

variable {cfg : Config} (hb : cfg.backend = .hBridge) (c : Nat) (l : Lane)

include hb

theorem movesBridge_tickLane : MovesBridge cfg c l (tickLane cfg c l) := by
  by_cases hdue : stepDue l
  · refine .inr ?_
    rw [tickLane_of_due hdue, stepLane, applyLane_of_hBridge hb]
    rfl
  · refine .inl ⟨by rw [tickLane_outs, if_neg hdue], ?_⟩
    rw [tickLane_phase, if_neg fun h => hdue h.2]

theorem movesBridge_homeBeatLane (sel : List Nat) (cnt : Nat) : MovesBridge cfg c l (homeBeatLane cfg sel cnt c l) := by
  unfold homeBeatLane
  split
  · refine .inr ?_
    rw [applyLane_of_hBridge hb]
    rfl
  · exact .inl ⟨rfl, rfl⟩

theorem movesBridge_homeBeginLane (sel : List Nat) : MovesBridge cfg c l (homeBeginLane cfg sel c l) := by
  refine .inl ⟨?_, ?_⟩
  · rw [homeBeginLane_outs, dirUpdate_of_not_directPin (by simp [hb]), ite_self]
  · rw [homeBeginLane_lane]
    split <;> rfl

theorem movesBridge_homeEndLane (sel : List Nat) : MovesBridge cfg c l (homeEndLane cfg sel c l) := by
  refine .inl ⟨?_, ?_⟩
  · rw [homeEndLane_outs, dirUpdate_of_not_directPin (by simp [hb]), ite_self]
  · rw [homeEndLane_lane]
    split <;> rfl

end hBridge

/-- Work on all lanes whose events move each lane's bridge with its phase. -/
theorem BridgeFollows.overLanes {s : State} (h : BridgeFollows s) {f : Nat → Lane → LaneResult} (hown : DrivesOwn f)
    (hmoves : ∀ c l, MovesBridge s.cfg c l (f c l)) : BridgeFollows (s.overLanes f) := by
  intro c l' hl'
  rw [State.overLanes_getElem?, Option.map_eq_some_iff] at hl'
  obtain ⟨l, hl, rfl⟩ := hl'
  rw [State.overLanes_trace, State.overLanes_cfg, bridgeLevel_append_eq_foldl,
    hown.foldl_outs (fun _ b ho => Output.onBridge_of_not_drives ho b) hl]
  obtain ⟨houts, hphase⟩ | houts := hmoves c l
  · rw [houts, hphase]
    exact h c l hl
  · rw [houts]
    exact .inr (if_pos rfl)

theorem BridgeFollows.of_keepsOutputs {s t : State} (h : BridgeFollows s) (hk : KeepsOutputs s t) :
    BridgeFollows t := by
  intro c l' hl'
  obtain ⟨l, hl, hsame⟩ := hk.exists_lane hl'
  obtain ⟨sent, htrace⟩ := hk.trace
  rw [htrace, hk.cfg, bridgeLevel_append (by simp [Output.isBridgeWrite]), hsame.phase]
  exact h c l hl

/-- After POWER_ON every bridge pin is 0 and every phase 0 (R282). -/
theorem bridgeFollows_powerOn (s : State) : BridgeFollows (powerOn s) := by
  intro c l hl
  refine .inl ⟨bridgeLevel_powerOn s c, ?_⟩
  rw [powerOn_lanes, List.getElem?_map, Option.map_eq_some_iff] at hl
  obtain ⟨k, -, rfl⟩ := hl
  rfl

/-- The H-bridge part of O50 as a property of one state. -/
def HBridgesFollow (s : State) : Prop := s.cfg.backend = .hBridge ∧ BridgeFollows s

theorem keptByParts_hBridgesFollow : KeptByParts HBridgesFollow where
  env _ _ _ h := h
  parse {s} b _ h := by
    rw [parseByte_frame]
    exact h
  command {s t} _ _ effect h := by
    obtain ⟨hb, hbridges⟩ := h
    obtain hk | ⟨sel, rfl⟩ := effect.keepsOutputs_or_home
    · exact ⟨effect.cfg_eq ▸ hb, hbridges.of_keepsOutputs hk⟩
    · exact ⟨hb, hbridges.overLanes (drivesOwn_homeBeginLane _ sel) fun c l => movesBridge_homeBeginLane hb c l sel⟩
  tick {s} h := by
    obtain ⟨hb, hbridges⟩ := h
    rw [tick, State.overLanesThenCommit_of_not_shiftRegister (by simp [hb])]
    exact ⟨hb, hbridges.overLanes (drivesOwn_tickLane _) (movesBridge_tickLane hb)⟩
  homeBeat {s} _ _ h := by
    obtain ⟨hb, hbridges⟩ := h
    have hcounted : BridgeFollows { s with homeCnt := s.homeCnt + 1 } := hbridges
    rw [homeBeat_eq, State.overLanesThenCommit_of_not_shiftRegister (by simp [hb])]
    exact ⟨hb, hcounted.overLanes (drivesOwn_homeBeatLane _ _ _) fun c l => movesBridge_homeBeatLane hb c l ..⟩
  homeEnd {s} _ _ h := by
    obtain ⟨hb, hbridges⟩ := h
    exact ⟨hb, hbridges.overLanes (drivesOwn_homeEndLane _ _) fun c l => movesBridge_homeEndLane hb c l _⟩
  powerOn {s} _ h := ⟨(powerOn_cfg s).symm ▸ h.1, bridgeFollows_powerOn s⟩

/-- Settles O50: in each backend every part of a step moves the pins with the registers. -/
theorem pinsFollowTheRegisters : Obligations.PinsFollowTheRegisters := by
  refine ⟨fun s t hb h hstep => ?_, fun s t hb h hstep => ?_⟩
  · exact (keptByParts_directPinsFollow.step hstep ⟨hb, h⟩).2
  · exact (keptByParts_hBridgesFollow.step hstep ⟨hb, h⟩).2

/-! The shift-register backend (R228, R229). -/

theorem packOuts_eq_of_outs_eq {lanes lanes' : List Lane} (h : lanes'.map (·.ch.out) = lanes.map (·.ch.out)) :
    packOuts lanes' = packOuts lanes := by
  induction lanes generalizing lanes' with
  | nil =>
    obtain rfl : lanes' = [] := by simpa using h
    rfl
  | cons l lanes ih =>
    cases lanes' with
    | nil => cases h
    | cons l' lanes' =>
      simp only [List.map_cons, List.cons.injEq] at h
      rw [packOuts_cons, packOuts_cons, h.1, ih h.2]

theorem LatchFollows.of_outs_eq {s t : State} (h : LatchFollows s)
    (houts : t.lanes.map (·.ch.out) = s.lanes.map (·.ch.out)) (hwords : committedWords t.trace = committedWords s.trace)
    (hlatch : t.srLatch = s.srLatch) : LatchFollows t := by
  rw [LatchFollows, packOuts_eq_of_outs_eq houts, hwords, hlatch]
  exact h

/-- Work on the lanes that emits no commit of its own and changes an output only where it calls `apply`. -/
structure CommitsByApply (f : Nat → Lane → LaneResult) : Prop where
  outs : ∀ c l, committedWords (f c l).outs = []
  out_eq : ∀ c l, (f c l).acted = false → (f c l).lane.ch.out = l.ch.out

theorem committedWords_flatten {outs : List (List Output)} (h : ∀ os ∈ outs, committedWords os = []) :
    committedWords outs.flatten = [] := by
  induction outs with
  | nil => rfl
  | cons os outs ih =>
    rw [List.flatten_cons, committedWords_append, h os (by simp), ih fun x hx => h x (by simp [hx])]
    rfl

section commits

variable {f : Nat → Lane → LaneResult} (hf : CommitsByApply f) {s : State}

include hf

theorem CommitsByApply.committedWords_overLanes :
    committedWords (s.overLanes f).trace = committedWords s.trace := by
  rw [State.overLanes_trace, committedWords_append, committedWords_flatten, List.append_nil]
  intro os hos
  obtain ⟨c, hc, rfl⟩ := List.mem_mapIdx.mp hos
  exact hf.outs c _

/-- Work that calls no `apply` leaves every output, so the latch still shows them. -/
theorem LatchFollows.overLanes (h : LatchFollows s) (hidle : ∀ c l, s.lanes[c]? = some l → (f c l).acted = false) :
    LatchFollows (s.overLanes f) := by
  refine h.of_outs_eq ?_ hf.committedWords_overLanes rfl
  rw [State.overLanes_lanes, map_mapIdx]
  exact List.ext_getElem (by simp) fun c _ _ => by
    simpa using hf.out_eq c _ (hidle c _ (List.getElem?_eq_getElem _))

/-- After an operation over all lanes the latch shows the outputs: a commit follows whenever one changed (R229). -/
theorem LatchFollows.overLanesThenCommit (h : LatchFollows s) (hb : s.cfg.backend = .shiftRegister) :
    LatchFollows (s.overLanesThenCommit f) := by
  by_cases hacted : s.anyActed f = true
  · obtain ⟨hlatch, htrace⟩ := State.overLanesThenCommit_of_acted hb hacted
    refine ⟨hlatch, ?_⟩
    rw [htrace, committedWords_append, hlatch]
    exact List.getLast?_concat
  · rw [State.overLanesThenCommit, if_neg hacted]
    refine h.overLanes hf fun c l hl => ?_
    rw [State.anyActed_iff] at hacted
    exact Bool.eq_false_of_not_eq_true fun ha => hacted ⟨c, l, hl, ha⟩

end commits

section shiftRegister

variable {cfg : Config} (hb : cfg.backend = .shiftRegister)

include hb

theorem commitsByApply_tickLane : CommitsByApply (tickLane cfg) where
  outs c l := by
    rw [tickLane_outs, applyLane_of_shiftRegister hb, ite_self]
    rfl
  out_eq c l hidle := by
    have hdue : ¬ stepDue l := fun h => by simp [(tickLane_acted cfg c l).mpr h] at hidle
    rw [tickLane_ch]
    split
    · rfl
    · next hsilent => rw [if_pos (Nat.lt_of_not_le fun hge => hdue ⟨hsilent, hge⟩)]

theorem commitsByApply_homeBeatLane (sel : List Nat) (cnt : Nat) : CommitsByApply (homeBeatLane cfg sel cnt) where
  outs c l := by
    unfold homeBeatLane
    split
    · rw [applyLane_of_shiftRegister hb]
      rfl
    · rfl
  out_eq c l hidle := by
    unfold homeBeatLane at hidle ⊢
    split at hidle
    · rw [applyLane_acted] at hidle
      cases hidle
    · next hdriven => rw [if_neg hdriven, LaneResult.idle_lane]

theorem commitsByApply_homeBeginLane (sel : List Nat) : CommitsByApply (homeBeginLane cfg sel) where
  outs c l := by
    rw [homeBeginLane_outs, dirUpdate_of_not_directPin (by simp [hb]), ite_self]
    rfl
  out_eq c l _ := by
    rw [homeBeginLane_ch]
    split <;> rfl

theorem commitsByApply_homeEndLane (sel : List Nat) : CommitsByApply (homeEndLane cfg sel) where
  outs c l := by
    rw [homeEndLane_outs, dirUpdate_of_not_directPin (by simp [hb]), ite_self]
    rfl
  out_eq c l _ := by
    rw [homeEndLane_ch]
    split <;> rfl

end shiftRegister

theorem homeBeginLane_acted (cfg : Config) (sel : List Nat) (c : Nat) (l : Lane) :
    (homeBeginLane cfg sel c l).acted = false := by
  unfold homeBeginLane
  split <;> rfl

theorem homeEndLane_acted (cfg : Config) (sel : List Nat) (c : Nat) (l : Lane) :
    (homeEndLane cfg sel c l).acted = false := by
  unfold homeEndLane
  split <;> rfl

theorem committedWords_sent (sent : List (List Byte)) : committedWords (sent.map .txBytes) = [] := by
  refine List.filterMap_eq_nil_iff.mpr fun o ho => ?_
  obtain ⟨bytes, -, rfl⟩ := List.mem_map.mp ho
  rfl

theorem LatchFollows.of_keepsOutputs {s t : State} (h : LatchFollows s) (hk : KeepsOutputs s t) : LatchFollows t := by
  obtain ⟨sent, htrace⟩ := hk.trace
  refine h.of_outs_eq hk.outs_eq ?_ hk.srLatch
  rw [htrace, committedWords_append, committedWords_sent, List.append_nil]

/-- After POWER_ON the latch, the last word committed and every output are 0 (R282). -/
theorem latchFollows_powerOn {s : State} (hb : s.cfg.backend = .shiftRegister) : LatchFollows (powerOn s) := by
  have hlatch : (powerOn s).srLatch = 0 := by rw [powerOn_frame]
  have hpacked : packOuts (powerOn s).lanes = 0 := by
    refine Nat.eq_of_testBit_eq fun c => ?_
    rw [Nat.zero_testBit]
    cases hl : (powerOn s).lanes[c]? with
    | none => exact packedBitIsTheChannelsOutput.2 _ _ (List.getElem?_eq_none_iff.mp hl)
    | some l =>
      rw [packedBitIsTheChannelsOutput.1 _ _ _ hl]
      rw [powerOn_lanes, List.getElem?_map, Option.map_eq_some_iff] at hl
      obtain ⟨k, -, rfl⟩ := hl
      rfl
  refine ⟨hlatch.trans hpacked.symm, ?_⟩
  rw [powerOn_trace, hlatch]
  simp [powerOnCommit, startupDirPins, hb, committedWords]

/-- O51 as a property of one state. -/
def ShiftRegisterFollows (s : State) : Prop := s.cfg.backend = .shiftRegister ∧ LatchFollows s

theorem keptByParts_shiftRegisterFollows : KeptByParts ShiftRegisterFollows where
  env _ _ _ h := h
  parse {s} b _ h := by
    rw [parseByte_frame]
    exact h
  command {s t} _ _ effect h := by
    obtain ⟨hb, hlatch⟩ := h
    obtain hk | ⟨sel, rfl⟩ := effect.keepsOutputs_or_home
    · exact ⟨effect.cfg_eq ▸ hb, hlatch.of_keepsOutputs hk⟩
    · exact ⟨hb, hlatch.overLanes (commitsByApply_homeBeginLane hb sel) fun _ _ _ => homeBeginLane_acted ..⟩
  tick {s} h := by
    obtain ⟨hb, hlatch⟩ := h
    exact ⟨(tick_cfg s).symm ▸ hb, hlatch.overLanesThenCommit (commitsByApply_tickLane hb) hb⟩
  homeBeat {s} _ _ h := by
    obtain ⟨hb, hlatch⟩ := h
    have hcounted : LatchFollows { s with homeCnt := s.homeCnt + 1 } := hlatch
    exact ⟨(homeBeat_cfg s).symm ▸ hb, hcounted.overLanesThenCommit (commitsByApply_homeBeatLane hb ..) hb⟩
  homeEnd {s} _ _ h := by
    obtain ⟨hb, hlatch⟩ := h
    exact ⟨hb, hlatch.overLanes (commitsByApply_homeEndLane hb _) fun _ _ _ => homeEndLane_acted ..⟩
  powerOn {s} _ h := ⟨(powerOn_cfg s).symm ▸ h.1, latchFollows_powerOn h.1⟩

/-- Settles O51: a commit follows every part of a step that changes an output. -/
theorem latchFollowsTheOutputs : Obligations.LatchFollowsTheOutputs := fun _ _ hb h hstep =>
  (keptByParts_shiftRegisterFollows.step hstep ⟨hb, h⟩).2

end Sys2Proof.Machine

/-! PROOF. O52: what a step does to everything but the backend, its own state and the trace is a function of everything
but those (R237): each operation on a state and on its core answer states with the same core. -/

namespace Sys2Proof.Machine

/-! The core of a state, update by update. -/

/-- A lane without its backend state (R37, R237). -/
def Lane.core (l : Lane) : Lane := { l with phase := 0 }

theorem State.core_lanes (s : State) : s.core.lanes = s.lanes.map Lane.core := rfl

/-- States that agree but for the backend, the latch and the trace have the same core when their records agree. -/
theorem core_congr {s t : State} (hrest : t.core = { s.core with lanes := t.core.lanes })
    (hch : t.lanes.map (·.ch) = s.lanes.map (·.ch)) : t.core = s.core := by
  have hlanes : t.core.lanes = s.core.lanes := by
    have := congrArg (List.map fun ch => (⟨ch, 0⟩ : Lane)) hch
    rwa [List.map_map, List.map_map] at this
  rw [hrest, hlanes]

@[simp] theorem State.core_core (s : State) : s.core.core = s.core :=
  core_congr rfl (by simp [State.core_lanes, Lane.core])

theorem State.core_modifyChan (s : State) (c : Nat) (f : Channel → Channel) :
    (s.core.modifyChan c f).core = (s.modifyChan c f).core := by
  refine core_congr rfl (List.ext_getElem? fun k => ?_)
  rw [List.getElem?_map, List.getElem?_map, State.modifyChan_getElem?, State.modifyChan_getElem?, State.core_lanes,
    List.getElem?_map, Option.map_map, Option.map_map, Option.map_map]
  refine Option.map_congr fun l _ => ?_
  dsimp only [Function.comp]
  split <;> rfl

theorem State.core_modifyAll (s : State) (f : Channel → Channel) :
    (s.core.modifyAll f).core = (s.modifyAll f).core :=
  core_congr rfl (by simp [State.core_lanes, Lane.core])

theorem State.core_chan (s : State) (c : Nat) : s.core.chan c = s.chan c := by
  rw [State.chan, State.chan, List.getD_eq_getElem?_getD, List.getD_eq_getElem?_getD, State.core_lanes,
    List.getElem?_map]
  cases s.lanes[c]? <;> rfl

/-- Two ways of working on a lane that make the same of its record whatever its phase. -/
theorem map_ch_overLanes {f f' : Nat → Lane → LaneResult} (h : ∀ c l, (f' c l.core).lane.ch = (f c l).lane.ch)
    (s : State) : (s.core.overLanes f').lanes.map (·.ch) = (s.overLanes f).lanes.map (·.ch) := by
  rw [State.overLanes_lanes, State.overLanes_lanes, State.core_lanes, mapIdx_map, map_mapIdx, map_mapIdx]
  simp only [h]

/-! The operations over all lanes. -/

theorem core_homeBegin (sel : List Nat) (s : State) : (homeBegin sel s.core).core = (homeBegin sel s).core :=
  core_congr rfl (map_ch_overLanes (fun c l => by rw [homeBeginLane_ch, homeBeginLane_ch]; rfl) s)

theorem core_homeEnd (s : State) : (homeEnd s.core).core = (homeEnd s).core :=
  core_congr rfl (map_ch_overLanes (fun c l => by rw [homeEndLane_ch, homeEndLane_ch]; rfl) s)

theorem core_tick (s : State) : (tick s.core).core = (tick s).core := by
  have hch : (tick s.core).lanes.map (·.ch) = (tick s).lanes.map (·.ch) := by
    rw [tick, tick, State.overLanesThenCommit_lanes, State.overLanesThenCommit_lanes]
    exact map_ch_overLanes (fun c l => by rw [tickLane_ch, tickLane_ch]; rfl) s
  refine core_congr ?_ hch
  rw [tick_frame s, tick_frame s.core]
  rfl

theorem core_homeBeat (s : State) : (homeBeat s.core).core = (homeBeat s).core := by
  have hch : (homeBeat s.core).lanes.map (·.ch) = (homeBeat s).lanes.map (·.ch) := by
    rw [homeBeat_eq, homeBeat_eq, State.overLanesThenCommit_lanes, State.overLanesThenCommit_lanes]
    exact map_ch_overLanes (fun c l => by rw [homeBeatLane_ch, homeBeatLane_ch]; rfl)
      { s with homeCnt := s.homeCnt + 1 }
  refine core_congr ?_ hch
  rw [homeBeat_frame s, homeBeat_frame s.core]
  rfl

theorem core_powerOn (s : State) : (powerOn s.core).core = (powerOn s).core := by
  have hch : (powerOn s.core).lanes.map (·.ch) = (powerOn s).lanes.map (·.ch) := by
    rw [powerOn_lanes, powerOn_lanes]
    rfl
  refine core_congr ?_ hch
  rw [powerOn_frame s, powerOn_frame s.core]
  rfl

/-! The parser (R131). -/

theorem ite_core {p : Prop} [Decidable p] {a b a' b' : State} (ha : a' = a.core) (hb : b' = b.core) :
    (if p then a' else b') = (if p then a else b).core := by
  split
  · exact ha
  · exact hb

theorem rxSeek_core (b : Byte) (s : State) : rxSeek b s.core = (rxSeek b s).core :=
  ite_core (p := b = s.cfg.startMarker) rfl rfl

theorem rxTarget_core (b : Byte) (s : State) : rxTarget b s.core = (rxTarget b s).core :=
  ite_core (p := targetAccepted s.cfg b = true) rfl rfl

theorem rxSub_core (b : Byte) (s : State) : rxSub b s.core = (rxSub b s).core :=
  ite_core (p := subAccepted s.cfg b = true) rfl rfl

/-- The parser's work reads no backend state. -/
theorem parseByte_core (b : Byte) (s : State) : parseByte b s.core = ((parseByte b s).1.core, (parseByte b s).2) := by
  cases hp : s.pstate with
  | seek => rw [parseByte_seek b hp, parseByte_seek (s := s.core) b hp, rxSeek_core]
  | target => rw [parseByte_target b hp, parseByte_target (s := s.core) b hp, rxTarget_core]
  | sub => rw [parseByte_sub b hp, parseByte_sub (s := s.core) b hp, rxSub_core]
  | len => rw [parseByte_len b hp, parseByte_len (s := s.core) b hp]; rfl
  | body => rw [parseByte_body b hp, parseByte_body (s := s.core) b hp]; rfl

/-! The operations, on a state and on its core (R237). -/

/-- The core of what an operation answers. -/
def coreOf : Host.Outcome State Fault Refusal → Host.Outcome State Fault Refusal
  | .next t => .next t.core
  | .fault r => .fault r
  | .refused r => .refused r

/-- Two outcomes that say the same but for the backend, its own state and the trace. -/
abbrev SameCore (o o' : Host.Outcome State Fault Refusal) : Prop := coreOf o = coreOf o'

theorem sameCore_next {t t' : State} (h : t.core = t'.core) : SameCore (.next t) (.next t') :=
  congrArg Host.Outcome.next h

/-- A condition on the core is the same for both. -/
theorem sameCore_ite {p : Prop} [Decidable p] {a b a' b' : Host.Outcome State Fault Refusal} (ha : SameCore a a')
    (hb : SameCore b b') : SameCore (if p then a else b) (if p then a' else b') := by
  split
  · exact ha
  · exact hb

theorem sameCore_onChannel {s t t' : State} (c : Nat) (h : t.core = t'.core) :
    SameCore (onChannel c s.core t) (onChannel c s t') :=
  sameCore_ite (p := c < s.cfg.nch) (sameCore_next h) rfl

theorem core_bendChannel (c : Nat) (d : Int) (s : State) : (bendChannel c d s.core).core = (bendChannel c d s).core := by
  by_cases hd : bendDefined s.cfg (s.chan c).origPeriod d = true
  · have hd' : bendDefined s.core.cfg (s.core.chan c).origPeriod d = true := by rwa [State.core_chan]
    rw [bendChannel_of_defined hd, bendChannel_of_defined hd']
    exact s.core_modifyChan c _
  · have hd' : ¬ bendDefined s.core.cfg (s.core.chan c).origPeriod d = true := by rwa [State.core_chan]
    rw [bendChannel_of_undefined hd, bendChannel_of_undefined hd']
    exact s.drawFree.core_modifyChan c _

/-- A broadcast is a system reset or nothing, as the configuration says (R142). -/
theorem sameCore_broadcast (op : Byte) (payload : List Byte) (s : State) :
    SameCore (exec (.broadcast op payload) s.core) (exec (.broadcast op payload) s) := by
  have hcore : s.core.cfg.broadcastPolicy = s.cfg.broadcastPolicy := rfl
  refine sameCore_ite (p := op = s.cfg.opcDevReset) (sameCore_next (core_homeBegin ..)) ?_
  rw [hcore]
  split
  · exact sameCore_next (core_homeBegin ..)
  · exact sameCore_next s.core_core

/-- A command reads no backend state and writes the core by the core. -/
theorem sameCore_command {i : Instr} (hi : i.isCommand = true) (s : State) : SameCore (exec i s.core) (exec i s) := by
  cases i with
  | rxByte | tick | homeBegin | homeBeat | homeEnd | powerOn => cases hi
  | sysPing | sysPong | sysStart | sysFallback | empty => exact sameCore_next s.core_core
  | devSetTargetColor c | devFallback c => exact sameCore_onChannel c s.core_core
  | sysReset => exact sameCore_next (core_homeBegin ..)
  | broadcast op payload => exact sameCore_broadcast op payload s
  | devReset c => exact sameCore_onChannel c (core_homeBegin ..)
  | devNoteOff c => exact sameCore_onChannel c (s.core_modifyChan ..)
  | sysStop =>
    exact sameCore_ite (p := s.cfg.seqStopSilences = true) (sameCore_next (s.core_modifyAll _))
      (sameCore_next s.core_core)
  | devNoteOn c payload =>
    cases payload with
    | nil => exact sameCore_onChannel c s.core_core
    | cons note rest =>
      exact sameCore_ite (p := romRead s.cfg note.toNat = 0) (sameCore_onChannel c s.core_core)
        (sameCore_onChannel c (s.core_modifyChan ..))
  | devBendPitch c payload =>
    simp only [exec, execDevBendPitch]
    split
    · exact sameCore_onChannel c s.core_core
    · exact sameCore_onChannel c (core_bendChannel ..)
  | devSetMovement c payload =>
    simp only [exec, execDevSetMovement]
    split
    · exact sameCore_onChannel c s.core_core
    · exact sameCore_onChannel c (s.core_modifyChan ..)
    · exact sameCore_onChannel c (s.core_modifyChan ..)

theorem sameCore_handOff (m : Message) (s : State) : SameCore (handOff m s.core) (handOff m s) := by
  have hd : decodeMessage s.core.cfg m = decodeMessage s.cfg m := rfl
  cases hm : decodeMessage s.cfg m with
  | ok i =>
    rw [handOff_eq_exec hm, handOff_eq_exec (hd.trans hm)]
    exact sameCore_command (decodeMessage_isCommand hm) s
  | error e => rw [handOff, handOff, hd, hm]

theorem sameCore_rxByte (b : Byte) (s : State) : SameCore (exec (.rxByte b) s.core) (exec (.rxByte b) s) := by
  simp only [exec, execRxByte, parseByte_core]
  exact sameCore_ite (p := rxEnabled s = true)
    (sameCore_ite (sameCore_handOff (heldMessage (parseByte b s).1) (parseByte b s).1)
      (sameCore_next (State.core_core _)))
    (sameCore_next s.core_core)

theorem sameCore_tick (s : State) : SameCore (exec .tick s.core) (exec .tick s) :=
  sameCore_ite (p := s.powered = true) (sameCore_next (core_tick s)) (sameCore_next s.core_core)

theorem sameCore_homeBeat (s : State) : SameCore (exec .homeBeat s.core) (exec .homeBeat s) :=
  sameCore_ite (p := homeBeatEnabled s = true) (sameCore_next (core_homeBeat s)) (sameCore_next s.core_core)

theorem sameCore_homeEnd (s : State) : SameCore (exec .homeEnd s.core) (exec .homeEnd s) :=
  sameCore_ite (p := homeEndEnabled s = true) (sameCore_next (core_homeEnd s)) (sameCore_next s.core_core)

/-! Turns and steps. -/

theorem sameCore_mainTurn (s : State) : SameCore (mainTurn s.core) (mainTurn s) := by
  cases hm : s.mode with
  | homing =>
    rw [mainTurn_of_homing hm, mainTurn_of_homing (s := s.core) hm]
    exact sameCore_ite (p := s.homeCnt < homeBeats s.cfg s.homeSel) (sameCore_homeBeat s) (sameCore_homeEnd s)
  | run =>
    cases hq : s.rxQueue with
    | nil =>
      rw [mainTurn_of_run_nil hm hq, mainTurn_of_run_nil (s := s.core) hm hq]
      exact sameCore_next s.core_core
    | cons b queue =>
      rw [mainTurn_of_run_cons hm hq, mainTurn_of_run_cons (s := s.core) hm hq]
      exact sameCore_rxByte b { s with rxQueue := queue }

theorem sameCore_runTurn (turn : Turn) (s : State) : SameCore (runTurn turn s.core) (runTurn turn s) := by
  cases turn with
  | host b => exact sameCore_next (State.core_core { s with rxQueue := s.rxQueue ++ [b] })
  | main => exact sameCore_mainTurn s
  | tick => exact sameCore_tick s

/-- A step of a powered block, of which a refusal depends on the core too. -/
theorem sameCore_step {s : State} (hp : s.powered = true) : SameCore (step s.core) (step s) := by
  cases hs : s.schedule with
  | nil =>
    rw [step_of_unscheduled hp hs, step_of_unscheduled (s := s.core) hp hs]
    exact sameCore_runTurn _ s.drawFree
  | cons turn turns =>
    rw [step_of_scheduled hp hs, step_of_scheduled (s := s.core) hp hs]
    exact sameCore_runTurn turn { s with schedule := turns }

/-- The core after a step, from the core before it; POWER_ON, whose refusal does depend on the backend, is taken by what
it answers. -/
theorem core_step_congr {s s' t t' : State} (hcore : s.core = s'.core) (h : step s = .next t)
    (h' : step s' = .next t') : t.core = t'.core := by
  have hpowered : s.powered = s'.powered :=
    show s.core.powered = s'.core.powered from congrArg State.powered hcore
  cases hp : s.powered with
  | false =>
    rw [step_of_unpowered hp] at h
    rw [hpowered] at hp
    rw [step_of_unpowered hp] at h'
    rw [eq_powerOn_of_exec_powerOn (hpowered.trans hp) h, eq_powerOn_of_exec_powerOn hp h', ← core_powerOn, hcore,
      core_powerOn]
  | true =>
    have hs := sameCore_step hp
    have hs' := sameCore_step (hpowered ▸ hp)
    rw [h] at hs
    rw [h', ← hcore] at hs'
    injection hs.symm.trans hs'

/-- Settles O52, by stepping the common core. -/
theorem coreIsBackendAgnostic : Obligations.CoreIsBackendAgnostic := fun _ _ _ _ => core_step_congr

end Sys2Proof.Machine
